-- ==== Sys2Proof/Word.lean ====
section
/-! DEFINITION. Words, pixels, and the closed sets of names the specification uses: register names, display modes,
pixel formats, the values of the multi-bit STATUS selectors, outcome codes, and the slots of the pixel latches. -/

namespace Sys2Proof

/-- One display register, or one word of the output buffer (`00_scope.md` R14, `10_state.md` R37). -/
abbrev Word := BitVec 32

/-- One colour channel (`00_scope.md` R14). -/
abbrev Byte := BitVec 8

/-- The three colour channels; a rule written for `ch` applies to each independently (`00_scope.md` R20). -/
inductive Channel where
  | r | g | b
  deriving DecidableEq, Repr

/-- A colour without coverage: what the scaler hands to the gamma and dither stage. -/
structure Colour where
  r : Byte
  g : Byte
  b : Byte
  deriving DecidableEq, Repr

/-- A ccvg sample (`00_scope.md` R20): 8 bits per channel and a 3-bit coverage. -/
structure Sample where
  r : Byte
  g : Byte
  b : Byte
  cvg : BitVec 3
  deriving DecidableEq, Repr

/-- The 14 display registers, in index order (`30_encoding.md` R110). -/
inductive RegName where
  | status | origin | width | vIntr | vCurrent | burst | vSync
  | hSync | leap | hStart | vStart | vBurst | xScale | yScale
  deriving DecidableEq, Repr

/-- The configuration enum `DISPLAY_MODE` (`30_encoding.md` R132). -/
inductive DisplayMode where
  | normal | rawColor | depth | coverage
  deriving DecidableEq, Repr

/-- The pixel format of `STATUS[1:0]` (`30_encoding.md` R112). -/
inductive PixelFormat where
  | blank | reserved | rgba5551 | rgba8888
  deriving DecidableEq, Repr

/-- `gd_mode`, the pair (gamma-enable, gamma-dither-enable) read as 0..3 (`30_encoding.md` R113). -/
inductive GdMode where
  | none | dither | gamma | gammaDither
  deriving DecidableEq, Repr

/-- `aa_mode = STATUS[9:8]` (`30_encoding.md` R116), named by its two bits. -/
inductive AaMode where
  | mode00 | mode01 | mode10 | mode11
  deriving DecidableEq, Repr

/-- The fetch state of a scanline: 0, 1 or 2 (`42_fetch_coverage_resolve.md` R266). -/
inductive FetchState where
  | fs0 | fs1 | fs2
  deriving DecidableEq, Repr

/-- `S.emu_parity`, "emulator controls field parity": -1, 0, 1 (`10_state.md` R36). -/
inductive ParityControl where
  | undetermined | no | yes
  deriving DecidableEq, Repr

/-- `phase` of the scan position (`10_state.md` R32). -/
inductive Phase where
  | idle | begin | render | present
  deriving DecidableEq, Repr

/-- The warning codes W1 to W5 (`60_exceptions.md` R401). -/
inductive WarnCode where
  | w1 | w2 | w3 | w4 | w5
  deriving DecidableEq, Repr

/-- The Fatal codes F1 and F2 (`60_exceptions.md` R401). -/
inductive FatalCode where
  | f1 | f2
  deriving DecidableEq, Repr

/-- The Skip codes S1 to S5 (`60_exceptions.md` R401). -/
inductive SkipCode where
  | s1 | s2 | s3 | s4 | s5
  deriving DecidableEq, Repr

/-- How a frame step ended (`60_exceptions.md` R400). -/
inductive FrameResult where
  | frame
  | skip (code : SkipCode)
  | fatal (code : FatalCode)
  deriving DecidableEq, Repr

/-- One configuration write of the host: a configuration input of `00_scope.md` R12 or `ZB_ADDRESS` (R13), with its
value (`70_reset_and_hazards.md` R444). -/
inductive CfgSetting where
  | displayMode (m : DisplayMode)
  | tvFade (on : Bool)
  | numWorkers (n : Nat)
  | widescreen (on : Bool)
  | traceRecord (on : Bool)
  | zbAddress (a : Nat)
  deriving DecidableEq, Repr

/-- Which line of the interpolation a sample belongs to: the current line is resolved with fetch state 0, the next
line with the scanline's fetch state (`42_fetch_coverage_resolve.md` R267). -/
inductive Line where
  | current | next
  deriving DecidableEq, Repr

/-- The three resolved samples the divot filter reads (`43_divot_bilinear.md` R290). -/
inductive Slot where
  | left | centre | right
  deriving DecidableEq, Repr

/-- The four corners the scaler reads (`43_divot_bilinear.md` R298). -/
inductive Corner where
  | c00 | c01 | c10 | c11
  deriving DecidableEq, Repr

/-- A host statement that stores to the framebuffer or the hidden-bit memory (`30_encoding.md` R135). These are no
operations of the block, which has no write port (`20_memory.md` R89). -/
inductive HostStore where
  | mem16 (i : Nat) (v : BitVec 16)
  | mem32 (i : Nat) (v : BitVec 32)
  | hid (i : Nat) (h : BitVec 2)
  deriving DecidableEq, Repr

/-- The stage that reads a request's STATUS word (`30_encoding.md` R131). One STATUS word selects an operation for
every stage at once, so the stage is part of what tells an operation from another; the operations whose rule says
"no bits" each have a stage of their own. -/
inductive Stage where
  | frameKind | aaMode | resolveFull | resolvePartial | divot | gammaDither | scan | rawColor
  | lerp | noLerp | hblankClip | pixelWrite | fetchState | scanline
  | wreg | cfg | frameStep | beginFrame | render | present | modeNormal | depth | coverage
  deriving DecidableEq, Repr

/-- Why the decoder rejects a request. -/
inductive DecodeReject where
  /-- the request does not hold exactly four words -/
  | wrongLength
  /-- the second word names no stage -/
  | unknownStage
  /-- the STATUS word selects no operation of that stage (for example a coverage resolve of a blank frame) -/
  | noOperation
  /-- an operand word is outside its field's range -/
  | badOperand
  deriving DecidableEq, Repr

/-- One request as the block receives it: the STATUS word, the stage, and two operand words. -/
abbrev Request := List Word

end Sys2Proof
end

