-- ==== Sys2Proof/Config.lean ====
section
/-! DEFINITION. The implementation parameters of `00_scope.md` R9 to R12, with the values the specification takes, and
the free dither draws of `44_gamma_dither_output.md` R316. -/

namespace Sys2Proof

/-- `LERP_ORDER` (`00_scope.md` R11, `43_divot_bilinear.md` R299). -/
inductive LerpOrder where
  | hFirst | vFirst
  deriving DecidableEq, Repr

/-- `BLEND_EXTREMA` (`00_scope.md` R11, `42_fetch_coverage_resolve.md` R262 and R263). -/
inductive BlendExtrema where
  | runningCandidate | minMax
  deriving DecidableEq, Repr

/-- `DITHER_SOURCE` (`00_scope.md` R11, `44_gamma_dither_output.md` R316 and R317). -/
inductive DitherSource where
  | draw | lcg
  deriving DecidableEq, Repr

/-- `FAST_EXPAND` (`00_scope.md` R11, `46_fast_display_modes.md` R385). -/
inductive FastExpand where
  | replicate | zero
  deriving DecidableEq, Repr

/-- The parameters "the model takes as arguments" (`00_scope.md` R9 to R12), each with the value taken as its default.
`seedInit` and `hwThreads` are OPEN in the specification: their defaults here are the model's
(DESIGN CHOICE, `notes/assumptions/3.md`). -/
structure Params where
  /-- `MAX_W`, output buffer columns -/
  maxW : Nat := 640
  /-- `MAX_H`, output buffer rows and fade-table length -/
  maxH : Nat := 625
  /-- `RDRAM_SIZE`, framebuffer memory size in bytes -/
  rdramSize : Nat := 0x800000
  /-- `NUM_REGS`, display registers; no rule reads it: `20_memory.md` R80 and `40_register_snapshot_decoder.md` R150 name
  the 14 slots outright, as `Regs` does (DEDUCED, `notes/assumptions/3.md`) -/
  numRegs : Nat := 14
  /-- `PAL_THRESHOLD`, half-lines -/
  palThreshold : Nat := 550
  /-- `V_OFFSET_PAL` -/
  vOffsetPal : Nat := 44
  /-- `V_OFFSET_NTSC` -/
  vOffsetNtsc : Nat := 34
  /-- `H_OFFSET_PAL` -/
  hOffsetPal : Nat := 128
  /-- `H_OFFSET_NTSC` -/
  hOffsetNtsc : Nat := 108
  /-- `H_FIELD_MASK` -/
  hFieldMask : Word := 0x7FF
  /-- `V_FIELD_MASK` -/
  vFieldMask : Word := 0x3FF
  /-- `HBLANK_MARGIN_L` -/
  hblankMarginL : Nat := 8
  /-- `HBLANK_MARGIN_R` -/
  hblankMarginR : Nat := 8
  /-- `FADE_FRAMES` -/
  fadeFrames : Nat := 2
  /-- `LERP_ORDER` -/
  lerpOrder : LerpOrder := .hFirst
  /-- `BLEND_EXTREMA` -/
  blendExtrema : BlendExtrema := .runningCandidate
  /-- `FETCH_BUG_ENABLE` -/
  fetchBugEnable : Bool := true
  /-- `DITHER_SOURCE` -/
  ditherSource : DitherSource := .draw
  /-- `CACHE_PROMOTE_STALE` -/
  cachePromoteStale : Bool := false
  /-- `CACHE_DEPTH` -/
  cacheDepth : Nat := 4
  /-- `FAST_EXPAND` -/
  fastExpand : FastExpand := .replicate
  /-- `SEED_INIT`, OPEN -/
  seedInit : Word := 0
  /-- `HW_THREADS`, OPEN, at least 1 -/
  hwThreads : Nat := 1
  deriving DecidableEq, Repr

namespace Config

/-- Every parameter at the value the specification takes. -/
def taken : Params := {}

/-- The free 1-bit draw `d1_ch` of pixel `i` of scanline `y` when the host's source of draws stands at `draws`
(`44_gamma_dither_output.md` R316, `70_reset_and_hazards.md` R443). It has no value in Lean: a statement about it holds
for every dither sequence. DESIGN CHOICE (the index), `notes/assumptions/5.md`. -/
opaque dither1 (draws y i : Nat) (ch : Channel) : BitVec 1

/-- The free 6-bit draw `d6_ch` of a pixel (`44_gamma_dither_output.md` R316), indexed as `dither1`. -/
opaque dither6 (draws y i : Nat) (ch : Channel) : BitVec 6

/-- Where the host's source of draws stands for the next frame step: free, so that the draws of different frames are
independent (`44_gamma_dither_output.md` R316) and no count of frames is kept (`70_reset_and_hazards.md` R442).
DESIGN CHOICE, `notes/assumptions/5.md`. -/
opaque nextDraws (draws : Nat) : Nat

end Config

end Sys2Proof
end

