-- ==== Sys2Proof/Machine/State.lean ====
section
/-! DEFINITION. The machine's state as plain data, the reasons it can stop, and the state after reset. -/

namespace Sys2Proof.Machine

/-- The reasons a step ends in a fault. No operation of the block faults (`60_exceptions.md` R411: no memory access
faults; a Fatal outcome is a state, R402, not a fault of the model). -/
inductive Fault where
  /-- Raised by a host statement `MEM16`, `MEM32` or `HID` whose pixel lies outside the framebuffer memory
  (`20_memory.md` R80): the specification says such bytes do not exist, and gives a store there no effect. SAFE. -/
  | hostStoreOutsideMemory
  deriving DecidableEq, Repr

/-- The reasons a step is refused. -/
inductive Refusal where
  /-- Raised by an arm of `exec` whose operation has no meaning yet. SAFE. -/
  | notModelled (mnemonic : String)
  /-- Raised by every operation of the block once the fatal mark is set: "a model treats the block as stuck, and every
  later request as refused" (`60_exceptions.md` R402). SAFE. -/
  | afterFatal
  /-- Raised by an operation asked for in a phase it does not belong to (`10_state.md` R32): `FRAME_STEP` and
  `BEGIN_FRAME` while a frame step is in progress; `RENDER`, `SCANLINE` and the operations that store a pixel outside the
  render phase, `PRESENT` outside the present phase (`60_exceptions.md` R407: a Skip has no render and no present); the
  parts of `begin_frame` in the render and present phases (`10_state.md` R34). SAFE. -/
  | outOfPhase (found : Phase)
  /-- Raised by a host store between dispatch and join: "a model refuses such a step rather than giving it a value"
  (`60_exceptions.md` R415, `70_reset_and_hazards.md` R437). SAFE. -/
  | memoryWriteDuringRender
  /-- Raised by a sink read of `Out` outside the interval between the present of one frame step and the start of the next:
  before any present, and once a later frame step has started, however it ended (`44_gamma_dither_output.md` R326,
  `60_exceptions.md` R415). SAFE. -/
  | sinkReadDuringFrameStep
  /-- Raised by a step whose request decodes to no operation and no host store. SAFE. -/
  | undecodable (why : DecodeReject)
  deriving DecidableEq, Repr

/-- The 14 display registers (`10_state.md` R33, `30_encoding.md` R110), 32 bits each. -/
structure Regs where
  status : Word := 0
  origin : Word := 0
  width : Word := 0
  vIntr : Word := 0
  vCurrent : Word := 0
  burst : Word := 0
  vSync : Word := 0
  hSync : Word := 0
  leap : Word := 0
  hStart : Word := 0
  vStart : Word := 0
  vBurst : Word := 0
  xScale : Word := 0
  yScale : Word := 0
  deriving DecidableEq, Repr

/-- The configuration inputs (`00_scope.md` R12) and `ZB_ADDRESS` (R13), at the values they have until the host sets them
(`92_eei_decisions.md` D52). `ZB_ADDRESS` is OPEN there: 0 is the model's (DESIGN CHOICE, `notes/assumptions/2.md`).
Nothing reads `widescreen` and `traceRecord` (DEDUCED, `notes/assumptions/23.md`). -/
structure HostConfig where
  displayMode : DisplayMode := .normal
  tvFade : Bool := false
  numWorkers : Nat := 0
  widescreen : Bool := false
  traceRecord : Bool := false
  zbAddress : Nat := 0
  deriving DecidableEq, Repr

/-- Framebuffer memory `M`, in bytes, and hidden-bit memory `H`, one 2-bit value per 16-bit pixel (`20_memory.md` R80).
Each is a list of (address, value) with rising addresses and no entry equal to 0, which is what an unlisted address
reads as. -/
structure Memory where
  bytes : List Host.Cell := []
  hidden : List (Nat × BitVec 2) := []
  deriving DecidableEq, Repr

/-- The scan position `(phase, y, i)`, the block's analogue of a program counter (`10_state.md` R32). How it moves
outside a frame: DESIGN CHOICE, unsafe (`notes/assumptions/18.md`). -/
structure ScanPosition where
  phase : Phase := .idle
  y : Nat := 0
  i : Nat := 0
  deriving DecidableEq, Repr

/-- `FrameConfig` `C` (`10_state.md` R34), and the fast-mode size of `46_fast_display_modes.md` R380. The defaults are the
decode of an all-zero snapshot, with every field of the resolver 0 or false: what the model holds while no C is built
(DESIGN CHOICE, `notes/assumptions/2.md`), and in the fields a `begin_frame` does not reach (DESIGN CHOICE,
`notes/assumptions/33.md`). -/
structure FrameConfig where
  fmt : PixelFormat := .blank
  isBlank : Bool := true
  is32 : Bool := false
  gdMode : GdMode := .none
  divotEn : Bool := false
  serrate : Bool := false
  aaMode : AaMode := .mode00
  covExtract : Bool := true
  bilinearEn : Bool := true
  restoreEn : Bool := false
  origin : Nat := 0
  base16 : Nat := 0
  base32 : Nat := 0
  w : Nat := 0
  vcurParity : Bool := false
  vSync : Nat := 0
  hsRaw : Nat := 0
  heRaw : Nat := 0
  vsRaw : Nat := 0
  veRaw : Nat := 0
  xAdd : Nat := 0
  yAdd : Nat := 0
  isPal : Bool := false
  hres : Int := 0
  vres : Int := 0
  hStart : Int := 0
  hStartClamped : Bool := false
  hresClamped : Bool := false
  xStart : Int := 0
  yStart : Int := 0
  validInterlace : Bool := false
  field : Bool := false
  vStart : Int := 0
  vactive : Int := 0
  validh : Bool := false
  marginLo : Int := 0
  marginHi : Int := 0
  hresRaw : Int := 0
  vresRaw : Int := 0
  deriving DecidableEq, Repr

/-- `PipelineState` `S` (`10_state.md` R36). `fade` lists the rows whose countdown is not 0. -/
structure PipelineState where
  prevSerrate : Bool := false
  prevVcurParity : Bool := false
  oldVstart : Nat := 0
  lowerField : Bool := false
  emuParity : ParityControl := .undetermined
  prevWasBlank : Bool := false
  fade : List (Nat × Nat) := []
  modeLatched : DisplayMode := .normal
  deriving DecidableEq, Repr

/-- The marker `(row, fs, lo, hwm)` of a line cache (`45_scanline_sequencer_cache.md` R350). -/
structure CacheMarker where
  row : Int
  fs : FetchState
  lo : Int
  hwm : Int
  deriving DecidableEq, Repr

/-- A line cache: its marker, `none` for `INVALID`, and its entries `(col, value)`. -/
structure LineCache where
  marker : Option CacheMarker := none
  entries : List (Int × Sample) := []
  deriving DecidableEq, Repr

/-- The four line caches of a worker (`45_scanline_sequencer_cache.md` R350). -/
structure WorkerCaches where
  cur : LineCache := {}
  next : LineCache := {}
  dcur : LineCache := {}
  dnext : LineCache := {}
  deriving DecidableEq, Repr

/-- What a scanline worker holds between scanlines: its dither seed (`10_state.md` R41) and its caches (R39). -/
structure Worker where
  seed : Word
  caches : WorkerCaches := {}
  deriving DecidableEq, Repr

/-- The pixel latches: the "internal pipeline latches" of `10_state.md` R31 that hold the working values of the pixel in
progress. `fetched` is the sample last fetched and `fetchedIdx` its pixel index; `fs` the fetch state of the scanline
in progress; `left`, `centre`, `right` the resolved samples of the divot; `c00` to `c11` the corners; `colour` the
colour between the scaler and the write, and `colourCvg` the coverage of the scaler's result, which no later stage reads
(`43_divot_bilinear.md` R299); `clipped` whether the blanking clip made the pixel black. All are 0 at reset
(DESIGN CHOICE, `notes/assumptions/2.md`). -/
structure PixelLatches where
  fetchedIdx : Int := 0
  fetched : Sample := ⟨0, 0, 0, 0⟩
  fs : FetchState := .fs0
  left : Sample := ⟨0, 0, 0, 0⟩
  centre : Sample := ⟨0, 0, 0, 0⟩
  right : Sample := ⟨0, 0, 0, 0⟩
  c00 : Sample := ⟨0, 0, 0, 0⟩
  c01 : Sample := ⟨0, 0, 0, 0⟩
  c10 : Sample := ⟨0, 0, 0, 0⟩
  c11 : Sample := ⟨0, 0, 0, 0⟩
  colour : Colour := ⟨0, 0, 0⟩
  colourCvg : BitVec 3 := 0
  clipped : Bool := false
  deriving DecidableEq, Repr

/-- The presented-frame descriptor (`10_state.md` R43, `44_gamma_dither_output.md` R325). -/
structure Descriptor where
  width : Nat
  height : Nat
  targetWidth : Nat
  targetHeight : Nat
  deriving DecidableEq, Repr

/-- The whole state. -/
structure State where
  /-- the parameters of `00_scope.md` R9 to R11; no operation writes them -/
  params : Params := Config.taken
  /-- host requests not yet taken, first first (the model's own) -/
  requests : List Request := []
  /-- the display-register source (`20_memory.md` R80), written by the host -/
  slots : Regs := {}
  /-- the configuration inputs as the host last set them (`00_scope.md` R12, R13) -/
  config : HostConfig := {}
  /-- the host's platform: (worker, how many scanlines it completes) for each worker that will fail in the next render
  (`60_exceptions.md` R412) -/
  workerFailures : List (Nat × Nat) := []
  /-- framebuffer and hidden-bit memory (`20_memory.md` R80), written by the host -/
  memory : Memory := {}
  /-- the scan position (`10_state.md` R32) -/
  scan : ScanPosition := {}
  /-- the configuration inputs sampled at the start of the frame step (`70_reset_and_hazards.md` R435) -/
  sampled : HostConfig := {}
  /-- the register snapshot `REG[0..13]` (`10_state.md` R33) -/
  reg : Regs := {}
  /-- `C` (`10_state.md` R34) -/
  frame : FrameConfig := {}
  /-- `S` (`10_state.md` R36) -/
  pipe : PipelineState := {}
  /-- `Out` (`10_state.md` R37): the words that are not 0, each at `row * MAX_W + column` -/
  out : List (Nat × Word) := []
  /-- the pixel latches (`10_state.md` R31) -/
  latch : PixelLatches := {}
  /-- the worker count of the worker pool, 0 before the first render (`45_scanline_sequencer_cache.md` R349) -/
  pool : Nat := 0
  /-- the workers whose seed or caches differ from a fresh worker's (`10_state.md` R39, R41) -/
  workers : List (Nat × Worker) := []
  /-- the outcome log (`10_state.md` R42, `60_exceptions.md` R404), first raised first -/
  log : List WarnCode := []
  /-- the fatal mark (`10_state.md` R42, `60_exceptions.md` R403) -/
  fatal : Bool := false
  /-- the presented-frame descriptor (`10_state.md` R43) -/
  presented : Option Descriptor := none
  /-- how the last frame step ended, as reported to the host (`60_exceptions.md` R400); none before the first (the
  model's own field, DESIGN CHOICE, `notes/assumptions/21.md`) -/
  result : Option FrameResult := none
  /-- `Out` is as the last present handed it over: no later frame step has started (`44_gamma_dither_output.md` R326; the
  model's own field, `notes/assumptions/22.md`) -/
  handedOver : Bool := false
  /-- where the host's source of dither draws stands (`70_reset_and_hazards.md` R443: the host supplies the draws; the
  model's own field, `notes/assumptions/5.md`) -/
  draws : Nat := 0
  deriving DecidableEq, Repr

/-- The machine right after reset with a host that has set nothing yet (`10_state.md` R44, `70_reset_and_hazards.md` R430):
every field at its default above. A reset of a running machine is `resetBlock` of `Sys2Proof/Machine/Ops.lean`. -/
def State.reset : State := {}

end Sys2Proof.Machine
end

