-- ==== Sys2Proof/Machine/Ops.lean ====
section
/-! DEFINITION. The named operations over memory, registers, the output buffer, the fade table and the workers; the three
outcomes Fatal, Warning and Skip as shared operations; and the two guards every meaning stands behind. -/

namespace Sys2Proof.Machine

/-! ### Sparse maps: lists of (key, value) in one canonical form -/

/-- The keys strictly rise. -/
def keysRise {α : Type} : List (Nat × α) → Bool
  | [] => true
  | [_] => true
  | e :: f :: rest => decide (e.1 < f.1) && keysRise (f :: rest)

/-- The canonical form: keys strictly rise and no entry holds the value `d` an unlisted key reads as. -/
def sparseWf {α : Type} [DecidableEq α] (d : α) (m : List (Nat × α)) : Bool :=
  keysRise m && m.all fun e => decide (e.2 ≠ d)

/-- The value at a key: the listed one, or `d`. -/
def sparseGet {α : Type} (d : α) : List (Nat × α) → Nat → α
  | [], _ => d
  | e :: rest, k => if e.1 = k then e.2 else sparseGet d rest k

/-- Write `v` at key `k`; writing `d` removes the entry. -/
def sparsePut {α : Type} [DecidableEq α] (d : α) (k : Nat) (v : α) : List (Nat × α) → List (Nat × α)
  | [] => if v = d then [] else [(k, v)]
  | e :: rest =>
    if e.1 < k then e :: sparsePut d k v rest
    else if e.1 = k then (if v = d then rest else (k, v) :: rest)
    else if v = d then e :: rest
    else (k, v) :: e :: rest

/-- The map that holds `f k` at every key below `n` and `d` elsewhere. -/
def sparseTabulate {α : Type} [DecidableEq α] (d : α) (n : Nat) (f : Nat → α) : List (Nat × α) :=
  (List.range n).filterMap fun k => if f k = d then none else some (k, f k)

/-! ### Memory -/

/-- The form of memory: both lists canonical with 0 unlisted, and no entry outside the space (`20_memory.md` R80). -/
def Memory.wf (rdramSize : Nat) (m : Memory) : Bool :=
  sparseWf 0 m.bytes && sparseWf 0 m.hidden &&
    (m.bytes.all fun e => decide (e.1 < rdramSize)) && (m.hidden.all fun e => decide (e.1 < rdramSize / 2))

/-- What one byte reads as; a byte nothing has written reads 0 (`95_test_vectors.md` section 4;
`notes/assumptions/1.md`). -/
def readByte (m : Memory) (a : Nat) : Byte := sparseGet 0 m.bytes a

/-- What one hidden value reads as; one nothing has written reads 0 (`42_fetch_coverage_resolve.md` R269). -/
def readHiddenCell (m : Memory) (i : Nat) : BitVec 2 := sparseGet 0 m.hidden i

/-- Bytes as one big-endian unsigned number (`20_memory.md` R82). -/
def bigEndian (bs : List Byte) : Nat := bs.foldl (fun acc b => acc * 256 + b.toNat) 0

/-- `MemRead(addr, n)`: big-endian, 0 if any byte lies outside memory (`00_scope.md` R18). -/
def memRead (P : Params) (m : Memory) (addr n : Nat) : Nat :=
  if addr + n ≤ P.rdramSize then bigEndian ((List.range n).map fun k => readByte m (addr + k)) else 0

/-- A pixel index is inside a space of `n` pixels (`20_memory.md` R84 to R86). -/
def indexInside (i : Int) (n : Nat) : Bool := decide (0 ≤ i) && decide (i < (n : Int))

/-- `Read16(i)` (`20_memory.md` R84). -/
def read16 (P : Params) (m : Memory) (i : Int) : BitVec 16 :=
  if indexInside i (P.rdramSize / 2) then BitVec.ofNat 16 (memRead P m (2 * i.toNat) 2) else 0

/-- `Read32(i)` (`20_memory.md` R85). -/
def read32 (P : Params) (m : Memory) (i : Int) : BitVec 32 :=
  if indexInside i (P.rdramSize / 4) then BitVec.ofNat 32 (memRead P m (4 * i.toNat) 4) else 0

/-- `ReadHidden(i)` (`20_memory.md` R86). -/
def readHidden (P : Params) (m : Memory) (i : Int) : BitVec 2 :=
  if indexInside i (P.rdramSize / 2) then readHiddenCell m i.toNat else 0

/-- `PairRead16(i)` (`20_memory.md` R87). -/
def pairRead16 (P : Params) (m : Memory) (i : Int) : BitVec 16 × BitVec 2 := (read16 P m i, readHidden P m i)

/-- Store one byte; only the host does (`20_memory.md` R81). -/
def writeByte (m : Memory) (a : Nat) (b : Byte) : Memory := { m with bytes := sparsePut 0 a b m.bytes }

/-- Store one hidden value; only the host does. -/
def writeHidden (m : Memory) (i : Nat) (h : BitVec 2) : Memory := { m with hidden := sparsePut 0 i h m.hidden }

/-- Store bytes at rising addresses from `a`. -/
def writeBytes (m : Memory) (a : Nat) : List Byte → Memory
  | [] => m
  | b :: rest => writeBytes (writeByte m a b) (a + 1) rest

/-! ### Display registers -/

/-- `REG[k]` or `slot(k)`, by name (`30_encoding.md` R110). -/
def Regs.get (r : Regs) : RegName → Word
  | .status => r.status
  | .origin => r.origin
  | .width => r.width
  | .vIntr => r.vIntr
  | .vCurrent => r.vCurrent
  | .burst => r.burst
  | .vSync => r.vSync
  | .hSync => r.hSync
  | .leap => r.leap
  | .hStart => r.hStart
  | .vStart => r.vStart
  | .vBurst => r.vBurst
  | .xScale => r.xScale
  | .yScale => r.yScale

/-- The registers with one slot set (`40_register_snapshot_decoder.md` R174). -/
def Regs.set (r : Regs) (n : RegName) (v : Word) : Regs :=
  match n with
  | .status => { r with status := v }
  | .origin => { r with origin := v }
  | .width => { r with width := v }
  | .vIntr => { r with vIntr := v }
  | .vCurrent => { r with vCurrent := v }
  | .burst => { r with burst := v }
  | .vSync => { r with vSync := v }
  | .hSync => { r with hSync := v }
  | .leap => { r with leap := v }
  | .hStart => { r with hStart := v }
  | .vStart => { r with vStart := v }
  | .vBurst => { r with vBurst := v }
  | .xScale => { r with xScale := v }
  | .yScale => { r with yScale := v }

/-- The configuration inputs after one write of the host (`70_reset_and_hazards.md` R444). -/
def HostConfig.set (c : HostConfig) : CfgSetting → HostConfig
  | .displayMode m => { c with displayMode := m }
  | .tvFade on => { c with tvFade := on }
  | .numWorkers n => { c with numWorkers := n }
  | .widescreen on => { c with widescreen := on }
  | .traceRecord on => { c with traceRecord := on }
  | .zbAddress a => { c with zbAddress := a }

/-! ### Named updates of the state -/

/-- The state with other pending requests. -/
def State.withRequests (s : State) (rs : List Request) : State := { s with requests := rs }

/-- The state with other register slots. -/
def State.withSlots (s : State) (r : Regs) : State := { s with slots := r }

/-- The state with other configuration inputs. -/
def State.withConfig (s : State) (c : HostConfig) : State := { s with config := c }

/-- The state with another memory. -/
def State.withMemory (s : State) (m : Memory) : State := { s with memory := m }

/-- The state with another scan position. -/
def State.withScan (s : State) (p : ScanPosition) : State := { s with scan := p }

/-- The state with another phase (`10_state.md` R32). -/
def State.withPhase (s : State) (p : Phase) : State := { s with scan := { s.scan with phase := p } }

/-- The state with other sampled configuration inputs. -/
def State.withSampled (s : State) (c : HostConfig) : State := { s with sampled := c }

/-- The state with another register snapshot. -/
def State.withReg (s : State) (r : Regs) : State := { s with reg := r }

/-- The state with another `C`. -/
def State.withFrame (s : State) (c : FrameConfig) : State := { s with frame := c }

/-- The state with another `S`. -/
def State.withPipe (s : State) (p : PipelineState) : State := { s with pipe := p }

/-- The state with another output buffer. -/
def State.withOut (s : State) (o : List (Nat × Word)) : State := { s with out := o }

/-- The state with other pixel latches. -/
def State.withLatch (s : State) (l : PixelLatches) : State := { s with latch := l }

/-- The state with another worker pool. -/
def State.withPool (s : State) (n : Nat) (ws : List (Nat × Worker)) : State := { s with pool := n, workers := ws }

/-- The state with other workers. -/
def State.withWorkers (s : State) (ws : List (Nat × Worker)) : State := { s with workers := ws }

/-- The state with another result of the last frame step. -/
def State.withResult (s : State) (r : FrameResult) : State := { s with result := some r }

/-- The state with another presented-frame descriptor. -/
def State.withPresented (s : State) (d : Descriptor) : State := { s with presented := some d }

/-- The state with `Out` handed over to the sink, or taken back. -/
def State.withHandedOver (s : State) (b : Bool) : State := { s with handedOver := b }

/-- The state with the host's source of draws standing elsewhere. -/
def State.withDraws (s : State) (n : Nat) : State := { s with draws := n }

/-! ### Outcomes: what stands in this block for taking an exception (`60_exceptions.md`)

There is no handler and no return: a warning goes on at once (R405), a Skip returns to `IDLE` (R407), and a Fatal is
left only by reset (R403). -/

/-- `warn(code)`: append the code to the outcome log and go on (`60_exceptions.md` R405). -/
def warn (code : WarnCode) (s : State) : State := { s with log := s.log ++ [code] }

/-- `warn(code)`, `n` times. -/
def warnTimes (code : WarnCode) (n : Nat) (s : State) : State := { s with log := s.log ++ List.replicate n code }

/-- `raise Fatal(code)`: the fatal mark is set, the code reported, and everything written before stands
(`60_exceptions.md` R402). The frame step ends at once, so the phase is `IDLE` (`41_frame_geometry_resolver.md` R219);
`y` and `i` stay where the outcome was raised (DESIGN CHOICE, `notes/assumptions/9.md`). -/
def raiseFatal (code : FatalCode) (s : State) : State :=
  { s with scan := { s.scan with phase := .idle }, fatal := true, result := some (.fatal code), handedOver := false }

/-- `Skip(code)`: the frame step ends with no frame and the phase is `IDLE` (`60_exceptions.md` R407,
`41_frame_geometry_resolver.md` R180). -/
def skip (code : SkipCode) (s : State) : State :=
  { s with scan := { s.scan with phase := .idle }, result := some (.skip code) }

/-! ### Reset -/

/-- A reset of the machine at any moment (`70_reset_and_hazards.md` R430): every piece of the block's state takes its value
of `10_state.md` R44, and what belongs to the host is not touched: framebuffer and hidden memory, the display-register
source, the configuration inputs (R434), the requests it has placed, its platform and its source of draws (R443). Reset
is an input line, no request: `notes/assumptions/26.md`. -/
def resetBlock (s : State) : State :=
  { State.reset with
    params := s.params
    requests := s.requests
    slots := s.slots
    config := s.config
    workerFailures := s.workerFailures
    memory := s.memory
    draws := s.draws }

/-! ### Guards -/

/-- What every operation of the block answers: its effect, or a refusal once the fatal mark is set
(`60_exceptions.md` R402). -/
def blockOperation (effect : State → State) (s : State) : Host.Outcome State Fault Refusal :=
  if s.fatal then .refused .afterFatal else .next (effect s)

/-- An operation that runs in one phase of the frame step only (`10_state.md` R32; DEDUCED, safe,
`notes/assumptions/12.md`). -/
def phaseOperation (phase : Phase) (effect : State → State) (s : State) : Host.Outcome State Fault Refusal :=
  if s.fatal then .refused .afterFatal
  else if s.scan.phase = phase then .next (effect s)
  else .refused (.outOfPhase s.scan.phase)

/-- A part of `begin_frame` asked for on its own: it writes `C` and `S`, which "is immutable for the rest of the frame"
once `begin_frame` has ended (`10_state.md` R34, `41_frame_geometry_resolver.md` R217), so it does not run in the render
and present phases. -/
def setupOperation (effect : State → State) (s : State) : Host.Outcome State Fault Refusal :=
  if s.fatal then .refused .afterFatal
  else if s.scan.phase = .render ∨ s.scan.phase = .present then .refused (.outOfPhase s.scan.phase)
  else .next (effect s)

/-! ### The output buffer -/

/-- Where `Out[row][col]` is held. -/
def outKey (P : Params) (row col : Nat) : Nat := row * P.maxW + col

/-- `(row, col)` is an element of the output buffer (`10_state.md` R37). -/
def inRaster (P : Params) (row col : Int) : Bool :=
  indexInside row P.maxH && indexInside col P.maxW

/-- `Out[row][col]`; 0 outside the buffer. -/
def readOut (P : Params) (o : List (Nat × Word)) (row col : Int) : Word :=
  if inRaster P row col then sparseGet 0 o (outKey P row.toNat col.toNat) else 0

/-- `Out[row][col] <- px`; a position outside the buffer is not written (DESIGN CHOICE, `notes/assumptions/17.md`). -/
def writeOut (P : Params) (row col : Int) (px : Word) (o : List (Nat × Word)) : List (Nat × Word) :=
  if inRaster P row col then sparsePut 0 (outKey P row.toNat col.toNat) px o else o

/-- `Out[row][col] <- 0` for every element that `p row col` holds of. -/
def clearOut (P : Params) (p : Nat → Nat → Bool) (o : List (Nat × Word)) : List (Nat × Word) :=
  o.filter fun e => !p (e.1 / P.maxW) (e.1 % P.maxW)

/-- An output word `0x00RRGGBB` (`30_encoding.md` R130, `44_gamma_dither_output.md` R322). -/
def pack (c : Colour) : Word := (0 : BitVec 8) ++ c.r ++ c.g ++ c.b

/-- The form of the output buffer: canonical with 0 unlisted, inside the raster, bits [31:24] of every word 0
(`10_state.md` R37). -/
def outWf (P : Params) (o : List (Nat × Word)) : Bool :=
  sparseWf 0 o && (o.all fun e => decide (e.1 < P.maxH * P.maxW)) && (o.all fun e => decide (e.2.toNat < 2 ^ 24))

/-! ### The fade table -/

/-- `S.fade[row]` (`10_state.md` R36). -/
def readFade (t : List (Nat × Nat)) (row : Nat) : Nat := sparseGet 0 t row

/-- The fade table whose row `r` holds `f r`. -/
def fadeTable (P : Params) (f : Nat → Nat) : List (Nat × Nat) := sparseTabulate 0 P.maxH f

/-- The form of the fade table: canonical with 0 unlisted, rows below `MAX_H`, counters at most `FADE_FRAMES`
(`10_state.md` R36). -/
def fadeWf (P : Params) (t : List (Nat × Nat)) : Bool :=
  sparseWf 0 t && (t.all fun e => decide (e.1 < P.maxH)) && (t.all fun e => decide (e.2 ≤ P.fadeFrames))

/-! ### Workers -/

/-- A worker of a fresh pool: its seed is `SEED_INIT` (`45_scanline_sequencer_cache.md` R349) and every cache marker is
`INVALID` (R352). -/
def freshWorker (P : Params) : Worker := { seed := P.seedInit }

/-- Worker `k`. -/
def getWorker (P : Params) (ws : List (Nat × Worker)) (k : Nat) : Worker := sparseGet (freshWorker P) ws k

/-- The workers with worker `k` replaced. -/
def putWorker (P : Params) (k : Nat) (wk : Worker) (ws : List (Nat × Worker)) : List (Nat × Worker) :=
  sparsePut (freshWorker P) k wk ws

/-- The workers with every cache marker `INVALID` (`45_scanline_sequencer_cache.md` R352) and every seed kept. -/
def invalidateCaches (P : Params) (ws : List (Nat × Worker)) : List (Nat × Worker) :=
  ws.filterMap fun e =>
    if e.2.seed = P.seedInit then none else some (e.1, { seed := e.2.seed, caches := {} })

/-- The worker count `W` of a frame (`45_scanline_sequencer_cache.md` R344): `HW_THREADS`, which is at least 1, when
`NUM_WORKERS` is 0. -/
def workerCount (P : Params) (c : HostConfig) : Nat :=
  if c.numWorkers = 0 then max 1 P.hwThreads else c.numWorkers

/-- The worker pool at dispatch: re-created when `W` has changed (`45_scanline_sequencer_cache.md` R349), every cache
marker `INVALID` in any case (R352). `W` is compared here only, with that of the last dispatch: a `W` that only frame steps
ending in a Skip have sampled re-creates nothing (DESIGN CHOICE, `notes/assumptions/31.md`). -/
def startPool (s : State) : State :=
  let W := workerCount s.params s.sampled
  if s.pool = W then s.withWorkers (invalidateCaches s.params s.workers) else s.withPool W []

end Sys2Proof.Machine
end

