-- ==== Sys2Proof/Machine/Flags.lean ====
section
/-! DEFINITION. The register snapshot decoder: every field of `FrameConfig` that depends on the registers alone
(`40_register_snapshot_decoder.md` R150 to R173), with the operations that are its cases. -/

namespace Sys2Proof.Machine

/-- `v[lo+len-1 : lo]` as a number (`00_scope.md` R15, `30_encoding.md` R119: no field is sign-extended). -/
def field (v : Word) (lo len : Nat) : Nat := (v.extractLsb' lo len).toNat

/-- `C.fmt` from `type = STATUS[1:0]` (`40_register_snapshot_decoder.md` R152). -/
def formatOf : Nat → PixelFormat
  | 0 => .blank
  | 1 => .reserved
  | 2 => .rgba5551
  | _ => .rgba8888

/-- `C.gd_mode` from 0..3 (`40_register_snapshot_decoder.md` R156). -/
def gdModeOf : Nat → GdMode
  | 0 => .none
  | 1 => .dither
  | 2 => .gamma
  | _ => .gammaDither

/-- `C.aa_mode` from `STATUS[9:8]` (`40_register_snapshot_decoder.md` R159). -/
def aaModeOf : Nat → AaMode
  | 0 => .mode00
  | 1 => .mode01
  | 2 => .mode10
  | _ => .mode11

/-- `C.cov_extract = (aa_mode[1] = 0)` (`30_encoding.md` R116, `40_register_snapshot_decoder.md` R159). -/
def coverageExtracted : AaMode → Bool
  | .mode00 | .mode01 => true
  | .mode10 | .mode11 => false

/-- `C.bilinear_en = (aa_mode ≠ 3)` (`40_register_snapshot_decoder.md` R160). -/
def bilinearEnabled : AaMode → Bool
  | .mode00 | .mode01 | .mode10 => true
  | .mode11 => false

/-- The three fields `aa_mode` sets (`40_register_snapshot_decoder.md` R159, R160). -/
def withAaMode (C : FrameConfig) (m : AaMode) : FrameConfig :=
  { C with aaMode := m, covExtract := coverageExtracted m, bilinearEn := bilinearEnabled m }

/-- The fields a format sets (`40_register_snapshot_decoder.md` R152, R154, R155). -/
def withFormat (C : FrameConfig) (f : PixelFormat) : FrameConfig :=
  { C with
    fmt := f
    isBlank := decide (f = .blank ∨ f = .reserved)
    is32 := decide (f = .rgba8888) }

/-- `decode(REG)` (`40_register_snapshot_decoder.md` R172) less the warning: the fields of the resolver are those of a
configuration not yet built, 0 or false. A `begin_frame` that never reaches their rules, of a fast frame or one that ends in
F1 or S1, leaves them so (DESIGN CHOICE, `notes/assumptions/33.md`). -/
def decodeRegs (P : Params) (reg : Regs) : FrameConfig :=
  let base : FrameConfig :=
    { gdMode := gdModeOf (field reg.status 2 2)
      divotEn := reg.status.getLsbD 4
      serrate := reg.status.getLsbD 6
      restoreEn := reg.status.getLsbD 16
      origin := field reg.origin 0 24
      base16 := field reg.origin 0 24 >>> 1
      base32 := field reg.origin 0 24 >>> 2
      w := field reg.width 0 12
      vcurParity := reg.vCurrent.getLsbD 0
      vSync := field reg.vSync 0 10
      hsRaw := ((reg.hStart >>> 16) &&& P.hFieldMask).toNat
      heRaw := (reg.hStart &&& P.hFieldMask).toNat
      vsRaw := ((reg.vStart >>> 16) &&& P.vFieldMask).toNat
      veRaw := (reg.vStart &&& P.vFieldMask).toNat
      xAdd := field reg.xScale 0 12
      xStart := field reg.xScale 16 12
      yAdd := field reg.yScale 0 12
      yStart := field reg.yScale 16 12 }
  withAaMode (withFormat base (formatOf (field reg.status 0 2))) (aaModeOf (field reg.status 8 2))

/-- The capture of all 14 slots at once (`40_register_snapshot_decoder.md` R150). -/
def captureRegs (s : State) : State := s.withReg s.slots

/-- What a reserved format does besides its fields: `warn(W1)` (`40_register_snapshot_decoder.md` R153). -/
def warnReserved (s : State) : State := if s.frame.fmt = .reserved then warn .w1 s else s

/-- Capture, decode and the decoder's warning (`41_frame_geometry_resolver.md` R216, first line). -/
def captureAndDecode (s : State) : State :=
  let s1 := captureRegs s
  warnReserved (s1.withFrame (decodeRegs s.params s1.reg))

/-! ### The operations -/

/-- `FMT_RESERVED` (`40_register_snapshot_decoder.md` R175). -/
def execFmtReserved (s : State) : Host.Outcome State Fault Refusal :=
  setupOperation (fun s => warnReserved (s.withFrame (withFormat s.frame .reserved))) s

/-- `AA_MODE_00` (`40_register_snapshot_decoder.md` R176). -/
def execAaMode00 (s : State) : Host.Outcome State Fault Refusal :=
  setupOperation (fun s => s.withFrame (withAaMode s.frame .mode00)) s

/-- `AA_MODE_01` (`40_register_snapshot_decoder.md` R177). -/
def execAaMode01 (s : State) : Host.Outcome State Fault Refusal :=
  setupOperation (fun s => s.withFrame (withAaMode s.frame .mode01)) s

/-- `AA_MODE_10` (`40_register_snapshot_decoder.md` R178). -/
def execAaMode10 (s : State) : Host.Outcome State Fault Refusal :=
  setupOperation (fun s => s.withFrame (withAaMode s.frame .mode10)) s

/-- `AA_MODE_11` (`40_register_snapshot_decoder.md` R179). -/
def execAaMode11 (s : State) : Host.Outcome State Fault Refusal :=
  setupOperation (fun s => s.withFrame (withAaMode s.frame .mode11)) s

/-- `WREG`, the host's register write (`40_register_snapshot_decoder.md` R174): it writes the slot, which belongs to the
host (`70_reset_and_hazards.md` R434, R436), so it runs in every phase and after a Fatal (DEDUCED,
`notes/assumptions/20.md`). -/
def execWreg (reg : RegName) (v : Word) (s : State) : Host.Outcome State Fault Refusal :=
  .next (s.withSlots (s.slots.set reg v))

/-- `CFG`, the host's configuration write (`70_reset_and_hazards.md` R444): sampled by the next frame step (R435). -/
def execCfg (setting : CfgSetting) (s : State) : Host.Outcome State Fault Refusal :=
  .next (s.withConfig (s.config.set setting))

end Sys2Proof.Machine
end

