-- ==== Sys2Proof/Machine/Operands.lean ====
section
/-! DEFINITION. The operands of the pixel stages: scan accumulators, pixel indices, pixel fetches, and the latches a
result goes to; with the fetch operations. -/

namespace Sys2Proof.Machine

/-! ### Channels -/

/-- A channel of a sample (`00_scope.md` R20). -/
def sampleChannel (s : Sample) : Channel → Byte
  | .r => s.r
  | .g => s.g
  | .b => s.b

/-- A channel of a colour. -/
def colourChannel (c : Colour) : Channel → Byte
  | .r => c.r
  | .g => c.g
  | .b => c.b

/-- The sample whose channels are `f` and whose coverage is `cvg`. -/
def sampleOf (f : Channel → Byte) (cvg : BitVec 3) : Sample := ⟨f .r, f .g, f .b, cvg⟩

/-- The colour whose channels are `f`. -/
def colourOf (f : Channel → Byte) : Colour := ⟨f .r, f .g, f .b⟩

/-- The colour of a sample. -/
def sampleColour (s : Sample) : Colour := ⟨s.r, s.g, s.b⟩

/-! ### Scan accumulators (`41_frame_geometry_resolver.md` R204) -/

/-- `curry(y)`. -/
def curry (C : FrameConfig) (y : Int) : Int := C.yStart + y * C.yAdd

/-- `curx(i)`. -/
def curx (C : FrameConfig) (i : Int) : Int := C.xStart + i * C.xAdd

/-- `srow(y)`, the source row. -/
def srow (C : FrameConfig) (y : Int) : Int := curry C y >>> 10

/-- `col(i)`, the source column. -/
def scol (C : FrameConfig) (i : Int) : Int := curx C i >>> 10

/-- `yfrac(y)`, in 0..31. -/
def yfrac (C : FrameConfig) (y : Int) : Int := (curry C y >>> 5) % 32

/-- `xfrac(i)`, in 0..31. -/
def xfrac (C : FrameConfig) (i : Int) : Int := (curx C i >>> 5) % 32

/-- `fs(y)`, the fetch state of scanline `y` (`42_fetch_coverage_resolve.md` R266), 0 throughout when `FETCH_BUG_ENABLE`
is false (R268). -/
def fetchStateOf (P : Params) (C : FrameConfig) (y : Int) : FetchState :=
  if P.fetchBugEnable = false then .fs0
  else if srow C (y + 1) = srow C y then .fs2
  else if 1 ≤ y ∧ srow C (y - 1) = srow C y ∧ srow C (y + 1) ≠ srow C y then .fs1
  else .fs0

/-- `out_row(y)` (`41_frame_geometry_resolver.md` R201). -/
def outRow (C : FrameConfig) (y : Int) : Int :=
  (C.vStart + y) * (if C.serrate then 2 else 1) + (if C.field then 1 else 0)

/-! ### The scan position in the frame (`10_state.md` R32) -/

/-- The frame's scanline count: `C.vres`, or `vres_raw` in a fast mode (`45_scanline_sequencer_cache.md` R345). -/
def scanlineCount (s : State) : Nat :=
  match s.sampled.displayMode with
  | .normal => s.frame.vres.toNat
  | .rawColor | .depth | .coverage => s.frame.vresRaw.toNat

/-- The number of pixels of a scanline of the frame: `C.hres`, or `hres_raw` in a fast mode. -/
def lineLength (s : State) : Nat :=
  match s.sampled.displayMode with
  | .normal => s.frame.hres.toNat
  | .rawColor | .depth | .coverage => s.frame.hresRaw.toNat

/-- Pixel `i` of scanline `y` is a pixel of the frame. -/
def insideFrame (s : State) (y i : Nat) : Bool := decide (y < scanlineCount s) && decide (i < lineLength s)

/-- Scanline `y` becomes the scanline in progress; a number past the frame's last scanline names none, and the position
stays (DESIGN CHOICE, `notes/assumptions/18.md`). -/
def moveToScanline (y : Nat) (s : State) : State :=
  if y < scanlineCount s then s.withScan { s.scan with y := y, i := 0 } else s

/-- Pixel `i` becomes the pixel in progress; a number past the line's last pixel names none, and the position stays (DESIGN
CHOICE, `notes/assumptions/18.md`). -/
def moveToPixel (i : Nat) (s : State) : State :=
  if i < lineLength s then s.withScan { s.scan with i := i } else s

/-! ### Pixel indices -/

/-- `idx16(row, col)` (`42_fetch_coverage_resolve.md` R241). -/
def idx16 (C : FrameConfig) (row col : Int) : Int := C.base16 + row * C.w + col

/-- `idx32(row, col)` (`42_fetch_coverage_resolve.md` R242). -/
def idx32 (C : FrameConfig) (row col : Int) : Int := C.base32 + row * C.w + col

/-- The pixel index in the format of the frame (`42_fetch_coverage_resolve.md` R247). -/
def pixelIndex (C : FrameConfig) (row col : Int) : Int := if C.is32 then idx32 C row col else idx16 C row col

/-! ### Fetch -/

/-- The channels of a 5551 word, low bits 0 (`42_fetch_coverage_resolve.md` R243). -/
def decode5551 (p : BitVec 16) : Colour :=
  ⟨((p >>> 8) &&& 0xF8).setWidth 8, ((p >>> 3) &&& 0xF8).setWidth 8, ((p <<< 2) &&& 0xF8).setWidth 8⟩

/-- The channels of an 8888 word (`42_fetch_coverage_resolve.md` R245). -/
def decode8888 (p : Word) : Colour :=
  ⟨((p >>> 24) &&& 0xFF).setWidth 8, ((p >>> 16) &&& 0xFF).setWidth 8, ((p >>> 8) &&& 0xFF).setWidth 8⟩

/-- The coverage of a 5551 word and its hidden value, `(p[0] << 2) | h` (`30_encoding.md` R128). -/
def coverage5551 (p : BitVec 16) (h : BitVec 2) : BitVec 3 := p.extractLsb' 0 1 ++ h

/-- The coverage of an 8888 word, `p[7:5]` (`30_encoding.md` R129). -/
def coverage8888 (p : Word) : BitVec 3 := p.extractLsb' 5 3

/-- `fetch16(idx)` (`42_fetch_coverage_resolve.md` R243, R244). -/
def fetch16 (P : Params) (m : Memory) (C : FrameConfig) (idx : Int) : Sample :=
  let c := decode5551 (read16 P m idx)
  ⟨c.r, c.g, c.b, if C.covExtract then coverage5551 (read16 P m idx) (readHidden P m idx) else 7⟩

/-- `fetch32(idx)` (`42_fetch_coverage_resolve.md` R245, R246). -/
def fetch32 (P : Params) (m : Memory) (C : FrameConfig) (idx : Int) : Sample :=
  let c := decode8888 (read32 P m idx)
  ⟨c.r, c.g, c.b, if C.covExtract then coverage8888 (read32 P m idx) else 7⟩

/-! ### Latches -/

/-- The latches with one divot operand replaced. -/
def putSlot (l : PixelLatches) (slot : Slot) (v : Sample) : PixelLatches :=
  match slot with
  | .left => { l with left := v }
  | .centre => { l with centre := v }
  | .right => { l with right := v }

/-- The latches with one corner replaced. -/
def putCorner (l : PixelLatches) (corner : Corner) (v : Sample) : PixelLatches :=
  match corner with
  | .c00 => { l with c00 := v }
  | .c01 => { l with c01 := v }
  | .c10 => { l with c10 := v }
  | .c11 => { l with c11 := v }

/-- The fetch state a sample of a line is resolved with: 0 on the current line, the scanline's on the next
(`42_fetch_coverage_resolve.md` R267). -/
def lineFetchState (l : PixelLatches) : Line → FetchState
  | .current => .fs0
  | .next => l.fs

/-! ### The operations -/

/-- The latches after a fetch: the sample, and the pixel index it came from. -/
def latchFetch (l : PixelLatches) (idx : Int) (v : Sample) : PixelLatches :=
  { l with fetchedIdx := idx, fetched := v }

/-- `FETCH_5551` (`42_fetch_coverage_resolve.md` R269). -/
def execFetch5551 (idx : Int) (s : State) : Host.Outcome State Fault Refusal :=
  blockOperation (fun s => s.withLatch (latchFetch s.latch idx (fetch16 s.params s.memory s.frame idx))) s

/-- `FETCH_8888` (`42_fetch_coverage_resolve.md` R270). -/
def execFetch8888 (idx : Int) (s : State) : Host.Outcome State Fault Refusal :=
  blockOperation (fun s => s.withLatch (latchFetch s.latch idx (fetch32 s.params s.memory s.frame idx))) s

/-- The start of a scanline: its number, and its fetch state in the latch. -/
def startScanline (y : Nat) (s : State) : State :=
  (moveToScanline y s).withLatch { s.latch with fs := fetchStateOf s.params s.frame y }

/-- `FETCH_STATE` (`42_fetch_coverage_resolve.md` R276). It also makes `y` the scanline in progress
(`notes/assumptions/6.md`). -/
def execFetchState (y : Nat) (s : State) : Host.Outcome State Fault Refusal :=
  blockOperation (startScanline y) s

end Sys2Proof.Machine
end

