-- ==== Sys2Proof/Machine/Resolve.lean ====
section
/-! DEFINITION. The coverage-AA resolve: the restore filter for fully covered samples, the blend filter for partly covered
ones (`42_fetch_coverage_resolve.md` R247 to R264). -/

namespace Sys2Proof.Machine

/-! ### Restore filter -/

/-- `sign(v)` (`00_scope.md` R16). -/
def signOf (v : Int) : Int := if 0 < v then 1 else if v < 0 then -1 else 0

/-- `restore_table[(n5 << 5) | c5]` (`42_fetch_coverage_resolve.md` R252), by its 10-bit index. -/
def restoreTable (i : BitVec 10) : Int :=
  signOf ((i.extractLsb' 5 5).toNat - (i.extractLsb' 0 5).toNat)

/-- The 8 neighbours of the restore filter, with the substitution for fetch state 1 (`42_fetch_coverage_resolve.md`
R250). -/
def restoreNeighbours (w idx : Int) (fs : FetchState) : List Int :=
  [idx - w - 1, idx - w, idx - w + 1] ++
    (if fs = .fs1 then [idx - 1, idx, idx + 1] else [idx + w - 1, idx + w, idx + w + 1]) ++
    [idx - 1, idx + 1]

/-- The 5-bit channel of a 5551 word (`42_fetch_coverage_resolve.md` R250). -/
def top5of16 (p : BitVec 16) : Channel → BitVec 5
  | .r => p.extractLsb' 11 5
  | .g => p.extractLsb' 6 5
  | .b => p.extractLsb' 1 5

/-- The top 5 bits of a channel of an 8888 word (`42_fetch_coverage_resolve.md` R251). -/
def top5of32 (p : Word) : Channel → BitVec 5
  | .r => p.extractLsb' 27 5
  | .g => p.extractLsb' 19 5
  | .b => p.extractLsb' 11 5

/-- The correction of one channel: the table's entries summed over the neighbours' 5-bit values. -/
def restoreCorrection (c5 : BitVec 5) (n5s : List (BitVec 5)) : Int :=
  n5s.foldl (fun acc n5 => acc + restoreTable (n5 ++ c5)) 0

/-- The restore filter over any way of reading a neighbour's 5-bit channel. -/
def restoreWith (top5 : Int → Channel → BitVec 5) (s : Sample) (neighbours : List Int) : Sample :=
  sampleOf
    (fun ch =>
      BitVec.ofInt 8
        ((sampleChannel s ch).toNat +
          restoreCorrection ((sampleChannel s ch).extractLsb' 3 5) (neighbours.map fun n => top5 n ch)))
    s.cvg

/-- `restore(s, idx, fs)`, 16-bit (`42_fetch_coverage_resolve.md` R250). -/
def restore16 (P : Params) (m : Memory) (C : FrameConfig) (s : Sample) (idx : Int) (fs : FetchState) : Sample :=
  restoreWith (fun n => top5of16 (read16 P m n)) s (restoreNeighbours C.w idx fs)

/-- `restore(s, idx, fs)`, 32-bit (`42_fetch_coverage_resolve.md` R251). -/
def restore32 (P : Params) (m : Memory) (C : FrameConfig) (s : Sample) (idx : Int) (fs : FetchState) : Sample :=
  restoreWith (fun n => top5of32 (read32 P m n)) s (restoreNeighbours C.w idx fs)

/-! ### Blend filter -/

/-- The six blend positions in order (`42_fetch_coverage_resolve.md` R259). -/
def blendPositions (w idx : Int) (fs : FetchState) : List Int :=
  [idx - w - 1, idx - w + 1, idx - 2, idx + 2] ++
    (if fs = .fs1 then [idx - 2, idx + 2] else [idx + w - 1, idx + w + 1])

/-- A 16-bit neighbour is fully covered (`42_fetch_coverage_resolve.md` R260). -/
def full16 (P : Params) (m : Memory) (n : Int) : Bool :=
  (read16 P m n).getLsbD 0 && decide (readHidden P m n = 3)

/-- A 32-bit neighbour is fully covered (`42_fetch_coverage_resolve.md` R260). -/
def full32 (P : Params) (m : Memory) (n : Int) : Bool := decide (coverage8888 (read32 P m n) = 7)

/-- The running positions and candidates of the single pass of `42_fetch_coverage_resolve.md` R262. -/
structure Candidates where
  posmax : Nat
  posmin : Nat
  curpenmax : Nat
  curpenmin : Nat
  deriving DecidableEq, Repr

/-- One element of the single pass. -/
def scanCandidate (p : List Nat) (c : Candidates) (i : Nat) : Candidates :=
  if p.getD i 0 > p.getD c.posmax 0 then { c with curpenmax := p.getD c.posmax 0, posmax := i }
  else if p.getD i 0 < p.getD c.posmin 0 then { c with curpenmin := p.getD c.posmin 0, posmin := i }
  else c

/-- The single pass over elements 1 to n-1. -/
def scanCandidates (p : List Nat) : Candidates :=
  (List.range' 1 (p.length - 1)).foldl (scanCandidate p) ⟨0, 0, p.getD 0 0, p.getD 0 0⟩

/-- `extrema(p)` under `RUNNING_CANDIDATE` (`42_fetch_coverage_resolve.md` R262): the pair (pmin, pmax). -/
def runningCandidate (p : List Nat) : Nat × Nat :=
  let c := scanCandidates p
  let rescan := fun (from1 : Nat) => List.range' (from1 + 1) (p.length - (from1 + 1))
  let curpenmax :=
    if c.curpenmax ≠ p.getD c.posmax 0 then
      (rescan c.posmax).foldl (fun v i => if p.getD i 0 > v then p.getD i 0 else v) c.curpenmax
    else c.curpenmax
  let curpenmin :=
    if c.curpenmin ≠ p.getD c.posmin 0 then
      (rescan c.posmin).foldl (fun v i => if p.getD i 0 < v then p.getD i 0 else v) c.curpenmin
    else c.curpenmin
  (curpenmin, curpenmax)

/-- `extrema(p)` under `MIN_MAX` (`42_fetch_coverage_resolve.md` R263). -/
def exactExtrema (p : List Nat) : Nat × Nat :=
  (p.foldl min (p.getD 0 0), p.foldl max (p.getD 0 0))

/-- `extrema(p)` under the parameter `BLEND_EXTREMA` (`00_scope.md` R11). -/
def extrema (P : Params) (p : List Nat) : Nat × Nat :=
  match P.blendExtrema with
  | .runningCandidate => runningCandidate p
  | .minMax => exactExtrema p

/-- One blended channel (`42_fetch_coverage_resolve.md` R258). -/
def blendChannel (c : Byte) (cvg : BitVec 3) (e : Nat × Nat) : Byte :=
  BitVec.ofInt 8
    ((c.toNat : Int) + ((((e.1 : Int) + e.2 - 2 * c.toNat) * (7 - (cvg.toNat : Int)) + 4) >>> 3))

/-- The blend filter over a list of gathered colours, the centre first (`42_fetch_coverage_resolve.md` R258). -/
def blendWith (P : Params) (s : Sample) (gathered : List Colour) : Sample :=
  sampleOf
    (fun ch =>
      blendChannel (sampleChannel s ch) s.cvg
        (extrema P ((sampleColour s :: gathered).map fun c => (colourChannel c ch).toNat)))
    s.cvg

/-- `blend(s, idx, fs)`, 16-bit. -/
def blend16 (P : Params) (m : Memory) (C : FrameConfig) (s : Sample) (idx : Int) (fs : FetchState) : Sample :=
  blendWith P s
    (((blendPositions C.w idx fs).filter (full16 P m)).map fun n => decode5551 (read16 P m n))

/-- `blend(s, idx, fs)`, 32-bit. -/
def blend32 (P : Params) (m : Memory) (C : FrameConfig) (s : Sample) (idx : Int) (fs : FetchState) : Sample :=
  blendWith P s
    (((blendPositions C.w idx fs).filter (full32 P m)).map fun n => decode8888 (read32 P m n))

/-! ### The resolved sample -/

/-- `A(row, col, fs)` (`42_fetch_coverage_resolve.md` R247). -/
def resolvedSample (P : Params) (m : Memory) (C : FrameConfig) (row col : Int) (fs : FetchState) : Sample :=
  let idx := pixelIndex C row col
  if C.is32 then
    let s := fetch32 P m C idx
    if s.cvg = 7 then (if C.restoreEn then restore32 P m C s idx fs else s) else blend32 P m C s idx fs
  else
    let s := fetch16 P m C idx
    if s.cvg = 7 then (if C.restoreEn then restore16 P m C s idx fs else s) else blend16 P m C s idx fs

/-! ### The operations

Each takes the sample last fetched, and puts its result in a divot operand. -/

/-- `RESOLVE_PASS` (`42_fetch_coverage_resolve.md` R271). -/
def execResolvePass (slot : Slot) (s : State) : Host.Outcome State Fault Refusal :=
  blockOperation (fun s => s.withLatch (putSlot s.latch slot s.latch.fetched)) s

/-- `RESTORE16` (`42_fetch_coverage_resolve.md` R272). -/
def execRestore16 (slot : Slot) (line : Line) (s : State) : Host.Outcome State Fault Refusal :=
  blockOperation
    (fun s => s.withLatch (putSlot s.latch slot
      (restore16 s.params s.memory s.frame s.latch.fetched s.latch.fetchedIdx (lineFetchState s.latch line)))) s

/-- `RESTORE32` (`42_fetch_coverage_resolve.md` R273). -/
def execRestore32 (slot : Slot) (line : Line) (s : State) : Host.Outcome State Fault Refusal :=
  blockOperation
    (fun s => s.withLatch (putSlot s.latch slot
      (restore32 s.params s.memory s.frame s.latch.fetched s.latch.fetchedIdx (lineFetchState s.latch line)))) s

/-- `BLEND16` (`42_fetch_coverage_resolve.md` R274). -/
def execBlend16 (slot : Slot) (line : Line) (s : State) : Host.Outcome State Fault Refusal :=
  blockOperation
    (fun s => s.withLatch (putSlot s.latch slot
      (blend16 s.params s.memory s.frame s.latch.fetched s.latch.fetchedIdx (lineFetchState s.latch line)))) s

/-- `BLEND32` (`42_fetch_coverage_resolve.md` R275). -/
def execBlend32 (slot : Slot) (line : Line) (s : State) : Host.Outcome State Fault Refusal :=
  blockOperation
    (fun s => s.withLatch (putSlot s.latch slot
      (blend32 s.params s.memory s.frame s.latch.fetched s.latch.fetchedIdx (lineFetchState s.latch line)))) s

end Sys2Proof.Machine
end

