-- ==== Sys2Proof/Machine/Scaler.lean ====
section
/-! DEFINITION. The divot filter and the bilinear scaler (`43_divot_bilinear.md`). -/

namespace Sys2Proof.Machine

/-! ### Divot filter -/

/-- One channel of the divot (`43_divot_bilinear.md` R291): centre, left, right. -/
def divotChannel (c l r : Byte) : Byte :=
  if (l ≥ c ∧ r ≥ l) ∨ (l ≥ r ∧ c ≥ l) then l
  else if (r ≥ c ∧ l ≥ r) ∨ (r ≥ l ∧ c ≥ r) then r
  else c

/-- `divot(c, l, r)` (`43_divot_bilinear.md` R291). -/
def divot (c l r : Sample) : Sample :=
  if c.cvg &&& l.cvg &&& r.cvg = 7 then c
  else sampleOf (fun ch => divotChannel (sampleChannel c ch) (sampleChannel l ch) (sampleChannel r ch)) c.cvg

/-- `D(row, col, fs)` (`43_divot_bilinear.md` R290). -/
def divotSample (P : Params) (m : Memory) (C : FrameConfig) (row col : Int) (fs : FetchState) : Sample :=
  if C.divotEn then
    divot (resolvedSample P m C row col fs) (resolvedSample P m C row (col - 1) fs)
      (resolvedSample P m C row (col + 1) fs)
  else resolvedSample P m C row col fs

/-! ### Bilinear scaler -/

/-- `lerp(base, other, f)` (`43_divot_bilinear.md` R297), masked to a byte. -/
def lerp (base other : Byte) (f : Int) : Byte :=
  BitVec.ofInt 8 ((base.toNat : Int) + ((((other.toNat : Int) - base.toNat) * f + 16) >>> 5))

/-- One interpolated channel (`43_divot_bilinear.md` R299), under the parameter `LERP_ORDER`. -/
def bilerpChannel (P : Params) (c00 c01 c10 c11 : Byte) (xf yf : Int) : Byte :=
  match P.lerpOrder with
  | .hFirst => lerp (lerp c00 c01 xf) (lerp c10 c11 xf) yf
  | .vFirst => lerp (lerp c00 c10 yf) (lerp c01 c11 yf) xf

/-- `bilerp` of the four corners (`43_divot_bilinear.md` R299): the result's coverage is that of `c00`. -/
def bilerp (P : Params) (c00 c01 c10 c11 : Sample) (xf yf : Int) : Sample :=
  sampleOf
    (fun ch =>
      bilerpChannel P (sampleChannel c00 ch) (sampleChannel c01 ch) (sampleChannel c10 ch) (sampleChannel c11 ch) xf yf)
    c00.cvg

/-- Whether pixel `i` of scanline `y` is interpolated (`43_divot_bilinear.md` R296). -/
def lerping (C : FrameConfig) (y i : Int) : Bool :=
  C.bilinearEn && (decide (xfrac C i ≠ 0) || decide (yfrac C y ≠ 0))

/-- The scaled sample of pixel `i` of scanline `y`, evaluated without caches (`43_divot_bilinear.md` R298 to R302). -/
def scaledSample (P : Params) (m : Memory) (C : FrameConfig) (y i : Int) : Sample :=
  let row := srow C y
  let col := scol C i
  if lerping C y i then
    bilerp P (divotSample P m C row col .fs0) (divotSample P m C row (col + 1) .fs0)
      (divotSample P m C (row + 1) col (fetchStateOf P C y)) (divotSample P m C (row + 1) (col + 1) (fetchStateOf P C y))
      (xfrac C i) (yfrac C y)
  else divotSample P m C row col .fs0

/-- The colour of pixel `i` of scanline `y` before gamma and dither; no later stage reads the coverage
(`43_divot_bilinear.md` R299). -/
def scaledColour (P : Params) (m : Memory) (C : FrameConfig) (y i : Int) : Colour :=
  sampleColour (scaledSample P m C y i)

/-! ### The operations -/

/-- `DIVOT_OFF` (`43_divot_bilinear.md` R303): the centre operand becomes a corner. -/
def execDivotOff (corner : Corner) (s : State) : Host.Outcome State Fault Refusal :=
  blockOperation (fun s => s.withLatch (putCorner s.latch corner s.latch.centre)) s

/-- `DIVOT_ON` (`43_divot_bilinear.md` R304): the divot of the three operands becomes a corner. -/
def execDivotOn (corner : Corner) (s : State) : Host.Outcome State Fault Refusal :=
  blockOperation
    (fun s => s.withLatch (putCorner s.latch corner (divot s.latch.centre s.latch.left s.latch.right))) s

/-- The latches with the scaler's result: its colour and its coverage. -/
def putColour (l : PixelLatches) (v : Sample) : PixelLatches :=
  { l with colour := sampleColour v, colourCvg := v.cvg }

/-- `LERP` (`43_divot_bilinear.md` R305): the fractions are those of the pixel and scanline in progress. -/
def execLerp (s : State) : Host.Outcome State Fault Refusal :=
  blockOperation
    (fun s => s.withLatch (putColour s.latch
      (bilerp s.params s.latch.c00 s.latch.c01 s.latch.c10 s.latch.c11
        (xfrac s.frame s.scan.i) (yfrac s.frame s.scan.y)))) s

/-- `NO_LERP` (`43_divot_bilinear.md` R306). -/
def execNoLerp (s : State) : Host.Outcome State Fault Refusal :=
  blockOperation (fun s => s.withLatch (putColour s.latch s.latch.c00)) s

end Sys2Proof.Machine
end

