-- ==== Sys2Proof/Machine/Output.lean ====
section
/-! DEFINITION. The gamma tables, the dither engine, the blanking clip, the pixel write and the presentation
(`44_gamma_dither_output.md`). -/

namespace Sys2Proof.Machine

/-! ### Gamma tables -/

/-- One digit of the square root: the candidate, or one more. -/
def sqrtDigit (n m : Nat) : Nat := if (m + 1) * (m + 1) ≤ n then m + 1 else m

/-- The floor square root of a number below `4 ^ k`, one binary digit per level. -/
def sqrtDigits : Nat → Nat → Nat
  | 0, _ => 0
  | k + 1, n => sqrtDigit n (2 * sqrtDigits k (n / 4))

/-- `isqrt(n)`, the floor of the square root (`44_gamma_dither_output.md` R311). -/
def isqrt (n : Nat) : Nat := sqrtDigits (n.log2 / 2 + 1) n

/-- `gamma_table[v]` (`44_gamma_dither_output.md` R312). The table is constant (`10_state.md` R40), so it is a function
(DESIGN CHOICE, `notes/assumptions/4.md`). -/
def gammaTable (v : Byte) : Byte := BitVec.ofNat 8 (isqrt (v.toNat <<< 6) <<< 1)

/-- `gamma_dither_table[i]`, `i` of 14 bits (`44_gamma_dither_output.md` R313). -/
def gammaDitherTable (i : BitVec 14) : Byte := BitVec.ofNat 8 (isqrt i.toNat <<< 1)

/-! ### Dither values -/

/-- The mode takes dither values (`44_gamma_dither_output.md` R316, R317). -/
def modeDithers : GdMode → Bool
  | .none | .gamma => false
  | .dither | .gammaDither => true

/-- One advance of an LCG seed (`44_gamma_dither_output.md` R317). -/
def lcgAdvance (seed : Word) : Word := seed * 0x343FD + 0x269EC3

/-- `rnd` of a seed (`44_gamma_dither_output.md` R317). -/
def lcgRandom (seed : Word) : Nat := field seed 16 15

/-- The 1-bit dither value of a channel under `LCG`, mode 1 (`44_gamma_dither_output.md` R317). -/
def lcgDither1 (rnd : Nat) : Channel → BitVec 1
  | .r => BitVec.ofNat 1 rnd
  | .g => BitVec.ofNat 1 (rnd >>> 1)
  | .b => BitVec.ofNat 1 (rnd >>> 2)

/-- The 6-bit dither value of a channel under `LCG`, mode 3 (`44_gamma_dither_output.md` R317). -/
def lcgDither6 (rnd : Nat) : Channel → BitVec 6
  | .r => BitVec.ofNat 6 rnd
  | .g => BitVec.ofNat 6 (rnd >>> 6)
  | .b => BitVec.ofNat 6 (((rnd >>> 9) &&& 0x38) ||| (rnd &&& 7))

/-- The worker's seed after a pixel that passes the clip window: advanced once in modes 1 and 3 under `LCG`
(`44_gamma_dither_output.md` R317), unchanged under `DRAW` (R316). -/
def seedAfterPixel (P : Params) (mode : GdMode) (seed : Word) : Word :=
  match P.ditherSource with
  | .lcg => if modeDithers mode then lcgAdvance seed else seed
  | .draw => seed

/-- `d1_ch` of a pixel (`44_gamma_dither_output.md` R316, R317); `seed` is the seed after the pixel's advance. -/
def dither1 (P : Params) (draws y i : Nat) (seed : Word) (ch : Channel) : BitVec 1 :=
  match P.ditherSource with
  | .draw => Config.dither1 draws y i ch
  | .lcg => lcgDither1 (lcgRandom seed) ch

/-- `d6_ch` of a pixel, as `dither1`. -/
def dither6 (P : Params) (draws y i : Nat) (seed : Word) (ch : Channel) : BitVec 6 :=
  match P.ditherSource with
  | .draw => Config.dither6 draws y i ch
  | .lcg => lcgDither6 (lcgRandom seed) ch

/-! ### The gamma and dither stage -/

/-- Mode 1 of one channel (`44_gamma_dither_output.md` R315). -/
def ditherChannel (c : Byte) (d : BitVec 1) : Byte := if c.toNat < 255 then c + d.setWidth 8 else c

/-- Mode 3 of one channel (`44_gamma_dither_output.md` R319): the index is `(ch << 6) | d6`. -/
def gammaDitherChannel (c : Byte) (d : BitVec 6) : Byte := gammaDitherTable (c ++ d)

/-- The gamma and dither stage (`44_gamma_dither_output.md` R310) with the dither values of a pixel. -/
def gammaDither (mode : GdMode) (d1 : Channel → BitVec 1) (d6 : Channel → BitVec 6) (c : Colour) : Colour :=
  match mode with
  | .none => c
  | .dither => colourOf fun ch => ditherChannel (colourChannel c ch) (d1 ch)
  | .gamma => colourOf fun ch => gammaTable (colourChannel c ch)
  | .gammaDither => colourOf fun ch => gammaDitherChannel (colourChannel c ch) (d6 ch)

/-- A colour through the gamma and dither stage as pixel `i` of line `y`, and the seed after it. -/
def finishPixel (P : Params) (mode : GdMode) (draws y i : Nat) (seed : Word) (c : Colour) : Colour × Word :=
  let seed' := seedAfterPixel P mode seed
  (gammaDither mode (dither1 P draws y i seed') (dither6 P draws y i seed') c, seed')

/-! ### Blanking clip and the whole pixel -/

/-- Pixel `i` is outside the clip window (`44_gamma_dither_output.md` R321). -/
def clippedAt (C : FrameConfig) (i : Int) : Bool := decide (i < C.marginLo) || decide (C.marginHi ≤ i)

/-- `pixel(y, i)` (`44_gamma_dither_output.md` R324), evaluated without caches, with the worker's seed after it. -/
def pixelDirect (P : Params) (m : Memory) (C : FrameConfig) (draws y i : Nat) (seed : Word) : Word × Word :=
  if clippedAt C i then (0, seed)
  else
    let done := finishPixel P C.gdMode draws y i seed (scaledColour P m C y i)
    (pack done.1, done.2)

/-! ### The operations of the stage

The pixel in progress is that of the scan position, its worker the one that owns its scanline
(`45_scanline_sequencer_cache.md` R345). -/

/-- The worker that owns the scanline in progress. -/
def currentWorker (s : State) : Nat := s.scan.y % workerCount s.params s.sampled

/-- The gamma and dither stage in one mode on the colour of the pixel in progress: nothing on a clipped pixel, whose
colour is not computed and which takes no dither value (`44_gamma_dither_output.md` R321). -/
def gammaDitherStage (mode : GdMode) (s : State) : State :=
  if s.latch.clipped then s
  else
    let k := currentWorker s
    let wk := getWorker s.params s.workers k
    let done := finishPixel s.params mode s.draws s.scan.y s.scan.i wk.seed s.latch.colour
    (s.withLatch { s.latch with colour := done.1 }).withWorkers
      (putWorker s.params k { wk with seed := done.2 } s.workers)

/-- `GD_NONE` (`44_gamma_dither_output.md` R328): the colour passes and no dither value is taken. -/
def execGdNone (s : State) : Host.Outcome State Fault Refusal :=
  blockOperation (fun s => s) s

/-- `GD_DITHER` (`44_gamma_dither_output.md` R329); a clipped pixel takes no dither value (DEDUCED, `notes/assumptions/24.md`). -/
def execGdDither (s : State) : Host.Outcome State Fault Refusal :=
  blockOperation (gammaDitherStage .dither) s

/-- `GD_GAMMA` (`44_gamma_dither_output.md` R330): no dither value is taken. -/
def execGdGamma (s : State) : Host.Outcome State Fault Refusal :=
  blockOperation
    (fun s => s.withLatch { s.latch with colour := colourOf fun ch => gammaTable (colourChannel s.latch.colour ch) }) s

/-- `GD_GAMMA_DITHER` (`44_gamma_dither_output.md` R331). -/
def execGdGammaDither (s : State) : Host.Outcome State Fault Refusal :=
  blockOperation (gammaDitherStage .gammaDither) s

/-- Pixel `i` becomes the pixel in progress, black when it is outside the clip window. -/
def startPixel (i : Nat) (s : State) : State :=
  (moveToPixel i s).withLatch { s.latch with clipped := clippedAt s.frame i }

/-- `HBLANK_CLIP` (`44_gamma_dither_output.md` R332). -/
def execHblankClip (i : Nat) (s : State) : Host.Outcome State Fault Refusal :=
  blockOperation (startPixel i) s

/-- The packed pixel of the latches: 0 when clipped (`44_gamma_dither_output.md` R321, R322). -/
def latchedPixel (l : PixelLatches) : Word := if l.clipped then 0 else pack l.colour

/-- The store of the pixel in progress, and the advance of `i` (`44_gamma_dither_output.md` R323, `10_state.md` R32). Once
the scanline or the frame has ended there is no pixel to store (R32), and nothing happens (DESIGN CHOICE,
`notes/assumptions/18.md`). -/
def storePixel (s : State) : State :=
  if insideFrame s s.scan.y s.scan.i then
    (s.withOut
        (writeOut s.params (outRow s.frame s.scan.y) (s.frame.hStart + s.scan.i) (latchedPixel s.latch) s.out)).withScan
      { s.scan with i := s.scan.i + 1 }
  else s

/-- `PIXEL_WRITE` (`44_gamma_dither_output.md` R333). -/
def execPixelWrite (s : State) : Host.Outcome State Fault Refusal :=
  phaseOperation .render storePixel s

/-! ### Presentation -/

/-- The logical size handed to the sink (`44_gamma_dither_output.md` R325): `MAX_W` by `C.vactive` in the normal mode,
`hres_raw` by `vres_raw` in a fast mode; the target size equals it. -/
def descriptorOf (P : Params) (mode : DisplayMode) (C : FrameConfig) : Descriptor :=
  match mode with
  | .normal => ⟨P.maxW, C.vactive.toNat, P.maxW, C.vactive.toNat⟩
  | .rawColor | .depth | .coverage =>
    ⟨C.hresRaw.toNat, C.vresRaw.toNat, C.hresRaw.toNat, C.vresRaw.toNat⟩

/-- The hand-over of a finished frame, which ends the frame step (`44_gamma_dither_output.md` R325,
`41_frame_geometry_resolver.md` R180) and begins the interval in which the sink reads `Out` (R326). -/
def presentFrame (s : State) : State :=
  (((s.withPresented (descriptorOf s.params s.sampled.displayMode s.frame)).withResult .frame).withHandedOver
    true).withScan {}

/-- `PRESENT` (`44_gamma_dither_output.md` R334). -/
def execPresent (s : State) : Host.Outcome State Fault Refusal :=
  phaseOperation .present presentFrame s

end Sys2Proof.Machine
end

