-- ==== Sys2Proof/Machine/Cache.lean ====
section
/-! DEFINITION. The scanline cache controller (`45_scanline_sequencer_cache.md` R350 to R357): lookup, fill, promotion,
and the pixel computed through the caches. -/

namespace Sys2Proof.Machine

/-- The value held for a column, if the marker names the row and fetch state and covers the column
(`45_scanline_sequencer_cache.md` R351, the hit). -/
def cacheHit (c : LineCache) (row col : Int) (fs : FetchState) : Option Sample :=
  match c.marker with
  | some k =>
    if k.row = row ∧ k.fs = fs ∧ k.lo ≤ col ∧ col ≤ k.hwm then
      (c.entries.find? fun e => e.1 == col).map fun e => e.2
    else none
  | none => none

/-- The cache after a miss of a column: a contiguous fill past the high-water mark, or a reset
(`45_scanline_sequencer_cache.md` R351). -/
def cacheFill (depth : Nat) (c : LineCache) (row col : Int) (fs : FetchState) (v : Sample) : LineCache :=
  let reset : LineCache := { marker := some ⟨row, fs, col, col⟩, entries := [(col, v)] }
  match c.marker with
  | some k =>
    if k.row = row ∧ k.fs = fs ∧ col = k.hwm + 1 then
      { marker := some ⟨row, fs, max k.lo (col - depth + 1), col⟩
        entries := (c.entries.filter fun e => !(e.1 == col - depth)) ++ [(col, v)] }
    else reset
  | none => reset

/-- A lookup whose miss computes `v` (`45_scanline_sequencer_cache.md` R351). -/
def cacheLookup (depth : Nat) (c : LineCache) (row col : Int) (fs : FetchState) (v : Sample) : Sample × LineCache :=
  match cacheHit c row col fs with
  | some held => (held, c)
  | none => (v, cacheFill depth c row col fs v)

/-- `A(row, col, fs)` through a cache of resolved samples. -/
def cachedResolved (P : Params) (m : Memory) (C : FrameConfig) (c : LineCache) (row col : Int) (fs : FetchState) :
    Sample × LineCache :=
  cacheLookup P.cacheDepth c row col fs (resolvedSample P m C row col fs)

/-- `D(row, col, fs)` through a cache of divot outputs, a miss reading the resolved samples of columns `col - 1`, `col`
and `col + 1` in that order from the cache of resolved samples (`45_scanline_sequencer_cache.md` R354). -/
def cachedDivot (P : Params) (m : Memory) (C : FrameConfig) (d a : LineCache) (row col : Int) (fs : FetchState) :
    Sample × LineCache × LineCache :=
  match cacheHit d row col fs with
  | some held => (held, d, a)
  | none =>
    if C.divotEn then
      let l := cachedResolved P m C a row (col - 1) fs
      let c := cachedResolved P m C l.2 row col fs
      let r := cachedResolved P m C c.2 row (col + 1) fs
      let v := divot c.1 l.1 r.1
      (v, cacheFill P.cacheDepth d row col fs v, r.2)
    else
      let c := cachedResolved P m C a row col fs
      (c.1, cacheFill P.cacheDepth d row col fs c.1, c.2)

/-- A sample of the current row, fetch state 0, through `dcur` and `cur`. -/
def currentSample (P : Params) (m : Memory) (C : FrameConfig) (k : WorkerCaches) (row col : Int) :
    Sample × WorkerCaches :=
  let r := cachedDivot P m C k.dcur k.cur row col .fs0
  (r.1, { k with dcur := r.2.1, cur := r.2.2 })

/-- A sample of the next row, with the scanline's fetch state, through `dnext` and `next`. -/
def nextSample (P : Params) (m : Memory) (C : FrameConfig) (k : WorkerCaches) (row col : Int) (fs : FetchState) :
    Sample × WorkerCaches :=
  let r := cachedDivot P m C k.dnext k.next row col fs
  (r.1, { k with dnext := r.2.1, next := r.2.2 })

/-- The scaled sample of pixel `i` of scanline `y` through the worker's caches, the corners in the order of
`44_gamma_dither_output.md` R324. -/
def cachedScaled (P : Params) (m : Memory) (C : FrameConfig) (k : WorkerCaches) (y i : Int) : Sample × WorkerCaches :=
  let row := srow C y
  let col := scol C i
  let fs := fetchStateOf P C y
  let c00 := currentSample P m C k row col
  if lerping C y i then
    let c01 := currentSample P m C c00.2 row (col + 1)
    let c10 := nextSample P m C c01.2 (row + 1) col fs
    let c11 := nextSample P m C c10.2 (row + 1) (col + 1) fs
    (bilerp P c00.1 c01.1 c10.1 c11.1 (xfrac C i) (yfrac C y), c11.2)
  else c00

/-- `pixel(y, i)` computed by a worker: the packed pixel, and the worker after it. -/
def cachedPixel (P : Params) (m : Memory) (C : FrameConfig) (draws y i : Nat) (wk : Worker) : Word × Worker :=
  if clippedAt C i then (0, wk)
  else
    let scaled := cachedScaled P m C wk.caches y i
    let done := finishPixel P C.gdMode draws y i wk.seed (sampleColour scaled.1)
    (pack done.1, { seed := done.2, caches := scaled.2 })

/-- Whether a next-line cache is promoted at the start of a scanline of source row `row`
(`45_scanline_sequencer_cache.md` R355). -/
def promotes (P : Params) (c : LineCache) (row : Int) : Bool :=
  match c.marker with
  | some k => decide (k.row = row) && (decide (k.fs = .fs0) || P.cachePromoteStale)
  | none => false

/-- A promoted cache in its new role: a current-line cache is looked up with fetch state 0, so its marker carries that
state (DEDUCED, `notes/assumptions/10.md`). -/
def asCurrent (c : LineCache) : LineCache :=
  { c with marker := c.marker.map fun k => { k with fs := .fs0 } }

/-- The caches at the start of a scanline: the promotion, then every marker not promoted `INVALID`
(`45_scanline_sequencer_cache.md` R352, R355). -/
def promote (P : Params) (row : Int) (k : WorkerCaches) : WorkerCaches :=
  { cur := if promotes P k.next row then asCurrent k.next else {}
    dcur := if promotes P k.dnext row then asCurrent k.dnext else {}
    next := {}
    dnext := {} }

end Sys2Proof.Machine
end

