-- ==== Sys2Proof/Machine/Geometry.lean ====
section
/-! DEFINITION. The frame geometry resolver and interlace sequencer for the normal display mode
(`41_frame_geometry_resolver.md`), with the operations that are its cases. -/

namespace Sys2Proof.Machine

/-! ### Display-mode latch -/

/-- The display-mode latch (`41_frame_geometry_resolver.md` R181). -/
def latchMode (mode : DisplayMode) (s : State) : State :=
  if s.pipe.modeLatched = mode then s
  else (s.withOut []).withPipe { s.pipe with fade := [], modeLatched := mode }

/-! ### Standard, widths and starts -/

/-- `voff` (`41_frame_geometry_resolver.md` R183). -/
def verticalOffset (P : Params) (C : FrameConfig) : Nat := if C.isPal then P.vOffsetPal else P.vOffsetNtsc

/-- `hoff` (`41_frame_geometry_resolver.md` R183). -/
def horizontalOffset (P : Params) (C : FrameConfig) : Nat := if C.isPal then P.hOffsetPal else P.hOffsetNtsc

/-- The television standard (`41_frame_geometry_resolver.md` R183). -/
def resolveStandard (P : Params) (C : FrameConfig) : FrameConfig :=
  { C with isPal := decide (P.palThreshold < C.vSync) }

/-- The provisional size and horizontal start (`41_frame_geometry_resolver.md` R184 to R186). -/
def resolveSize (P : Params) (C : FrameConfig) : FrameConfig :=
  { C with
    hres := (C.heRaw : Int) - C.hsRaw
    vres := ((C.veRaw : Int) - C.vsRaw) >>> 1
    hStart := (C.hsRaw : Int) - horizontalOffset P C }

/-- The horizontal start clamp (`41_frame_geometry_resolver.md` R187). -/
def clampHorizontalStart (C : FrameConfig) : FrameConfig :=
  if C.hStart < 0 then
    { C with
      xStart := C.xStart + C.xAdd * (-C.hStart)
      hres := C.hres + C.hStart
      hStart := 0
      hStartClamped := true }
  else { C with hStartClamped := false }

/-- The vertical start and its clamp (`41_frame_geometry_resolver.md` R193, R194). -/
def resolveVerticalStart (P : Params) (C : FrameConfig) : FrameConfig :=
  let v := Int.tdiv ((C.vsRaw : Int) - verticalOffset P C) 2
  if v < 0 then { C with yStart := C.yStart + C.yAdd * (-v), vStart := 0 }
  else { C with vStart := v }

/-! ### Interlace sequencer -/

/-- `C.valid_interlace` (`41_frame_geometry_resolver.md` R188). -/
def validInterlaceOf (reg : Regs) (C : FrameConfig) : Bool := reg.status.getLsbD 1 && C.serrate

/-- The parity-control inference (`41_frame_geometry_resolver.md` R189). -/
def inferParity (valid : Bool) (C : FrameConfig) (p : PipelineState) : ParityControl :=
  if valid = true ∧ p.prevSerrate = true ∧ p.emuParity = .undetermined then
    (if C.vcurParity = p.prevVcurParity then .no else .yes)
  else p.emuParity

/-- The field selection (`41_frame_geometry_resolver.md` R190), given the parity control after R189. -/
def selectField (valid : Bool) (control : ParityControl) (C : FrameConfig) (p : PipelineState) : Bool :=
  if valid then
    match control with
    | .yes => !C.vcurParity
    | .no => if C.vsRaw = p.oldVstart then !p.lowerField else decide (C.vsRaw < p.oldVstart)
    | .undetermined => p.lowerField
  else p.lowerField

/-- `S` after the interlace sequencer (`41_frame_geometry_resolver.md` R189 to R192). -/
def sequenceFields (valid : Bool) (C : FrameConfig) (p : PipelineState) : PipelineState :=
  let control := inferParity valid C p
  { p with
    emuParity := control
    lowerField := selectField valid control C p
    prevVcurParity := if valid then C.vcurParity else p.prevVcurParity
    oldVstart := if valid then C.vsRaw else p.oldVstart
    prevSerrate := valid }

/-- The interlace sequencer (`41_frame_geometry_resolver.md` R188 to R192). -/
def sequenceInterlace (s : State) : State :=
  let valid := validInterlaceOf s.reg s.frame
  (s.withFrame { s.frame with validInterlace := valid }).withPipe (sequenceFields valid s.frame s.pipe)

/-! ### Size clamps -/

/-- The width clamp (`41_frame_geometry_resolver.md` R195). -/
def clampWidth (s : State) : State :=
  if s.frame.hStart + s.frame.hres > s.params.maxW then
    warn .w2 (s.withFrame { s.frame with hres := s.params.maxW - s.frame.hStart, hresClamped := true })
  else s.withFrame { s.frame with hresClamped := false }

/-- The height clamp (`41_frame_geometry_resolver.md` R196). -/
def clampHeight (s : State) : State :=
  if s.frame.vStart + s.frame.vres > s.params.maxH then
    warn .w3 (s.withFrame { s.frame with vres := s.params.maxH - s.frame.vStart })
  else s

/-! ### Active lines, field, written rows, margins -/

/-- `vact` (`41_frame_geometry_resolver.md` R197). -/
def activeCount (P : Params) (C : FrameConfig) : Int := (C.vSync : Int) - verticalOffset P C

/-- `C.vactive` (`41_frame_geometry_resolver.md` R199). -/
def resolveActive (P : Params) (C : FrameConfig) : FrameConfig :=
  { C with vactive := if C.serrate then activeCount P C else activeCount P C >>> 1 }

/-- `C.validh` (`41_frame_geometry_resolver.md` R200). -/
def resolveValid (P : Params) (C : FrameConfig) : FrameConfig :=
  { C with validh := decide (0 < C.hres) && decide (0 < C.vres) && decide (C.hStart < P.maxW) }

/-- `C.field` (`41_frame_geometry_resolver.md` R201). -/
def resolveField (lowerField : Bool) (C : FrameConfig) : FrameConfig :=
  { C with field := C.serrate && lowerField }

/-- The clip margins (`41_frame_geometry_resolver.md` R203). -/
def resolveMargins (P : Params) (C : FrameConfig) : FrameConfig :=
  { C with
    marginLo := if C.hStartClamped then 0 else P.hblankMarginL
    marginHi := if C.hresClamped then C.hres else C.hres - P.hblankMarginR }

/-- The scanlines of a normal frame: 0 to `C.vres - 1`, none when the frame is blank or has no active pixels
(`45_scanline_sequencer_cache.md` R340). That W4 counts these alone: `notes/assumptions/34.md`. -/
def frameScanlines (C : FrameConfig) : List Nat :=
  if C.isBlank || !C.validh then [] else List.range C.vres.toNat

/-- A scanline whose row is inside the buffer (`41_frame_geometry_resolver.md` R201). -/
def rowKept (P : Params) (C : FrameConfig) (y : Nat) : Bool := decide (outRow C y < P.maxH)

/-- `written` (`41_frame_geometry_resolver.md` R202). -/
def writtenRows (P : Params) (C : FrameConfig) : List Int :=
  ((frameScanlines C).filter (rowKept P C)).map fun y => outRow C y

/-- A row is in `written`. -/
def isWritten (P : Params) (C : FrameConfig) (row : Nat) : Bool := (writtenRows P C).contains (row : Int)

/-- How many scanlines are dropped (`41_frame_geometry_resolver.md` R201, R202): none of a blank frame or one with no active
pixels, whose `written` is empty, so that no W4 is raised for it (DESIGN CHOICE, `notes/assumptions/34.md`). -/
def droppedCount (P : Params) (C : FrameConfig) : Nat :=
  ((frameScanlines C).filter fun y => !rowKept P C y).length

/-- `warn(W4)` once per dropped scanline (`41_frame_geometry_resolver.md` R202). -/
def warnDropped (s : State) : State := warnTimes .w4 (droppedCount s.params s.frame) s

/-- The derived geometry of a frame whose active-line count is in range (`41_frame_geometry_resolver.md` R199 to R203). -/
def placeFrame (s : State) : State :=
  let C := resolveField s.pipe.lowerField (resolveValid s.params (resolveActive s.params s.frame))
  let s1 := warnDropped (s.withFrame C)
  s1.withFrame (resolveMargins s1.params s1.frame)

/-! ### Blank frames -/

/-- `S.fade[row]` after one decay (`41_frame_geometry_resolver.md` R214). -/
def decayed (t : List (Nat × Nat)) (row : Nat) : Nat := readFade t row - 1

/-- The decay clears the row: the counter reaches 0 (`41_frame_geometry_resolver.md` R214). -/
def decayClears (t : List (Nat × Nat)) (row : Nat) : Bool := decide (readFade t row = 1)

/-- A blank frame ends in Skip S2 (`41_frame_geometry_resolver.md` R207). `TV_FADE` is the value the frame step sampled
(`70_reset_and_hazards.md` R435); for `FMT_BLANK` asked for alone see `notes/assumptions/30.md`. -/
def blankSkips (s : State) : Bool := !s.sampled.tvFade && s.pipe.prevWasBlank

/-- A blank frame that is produced: hard clear without `TV_FADE` (`41_frame_geometry_resolver.md` R207), a decay of every
row with it (R208). -/
def blankFrame (s : State) : State :=
  if s.sampled.tvFade then
    (s.withOut (clearOut s.params (fun row _ => decayClears s.pipe.fade row) s.out)).withPipe
      { s.pipe with fade := fadeTable s.params (decayed s.pipe.fade), prevWasBlank := true }
  else (s.withOut []).withPipe { s.pipe with fade := [], prevWasBlank := true }

/-! ### Borders and fade on non-blank frames -/

/-- `Out[row][col]` is cleared as border (`41_frame_geometry_resolver.md` R210). -/
def inBorder (C : FrameConfig) (row col : Nat) : Bool :=
  decide ((row : Int) < C.vactive) &&
    !(decide (C.hStart ≤ (col : Int)) && decide ((col : Int) < C.hStart + max C.hres 0))

/-- The factor a row number is scaled by, `1 << C.serrate`. -/
def rowScale (C : FrameConfig) : Int := if C.serrate then 2 else 1

/-- A row is in the region of the frame (`41_frame_geometry_resolver.md` R212). -/
def inRegion (C : FrameConfig) (row : Nat) : Bool :=
  decide (C.vStart * rowScale C ≤ (row : Int)) && decide ((row : Int) < (C.vStart + C.vres) * rowScale C)

/-- An unwritten row is cleared on a non-blank frame: with `TV_FADE` when its counter reaches 0
(`41_frame_geometry_resolver.md` R214), without it when the row is outside the region (R215). -/
def rowCleared (P : Params) (C : FrameConfig) (tvFade : Bool) (t : List (Nat × Nat)) (row : Nat) : Bool :=
  !isWritten P C row && (if tvFade then decayClears t row else !inRegion C row)

/-- `S.fade[row]` after a non-blank frame (`41_frame_geometry_resolver.md` R213 to R215). -/
def fadeAfter (P : Params) (C : FrameConfig) (tvFade : Bool) (t : List (Nat × Nat)) (row : Nat) : Nat :=
  if isWritten P C row then P.fadeFrames
  else if tvFade then decayed t row
  else if inRegion C row then readFade t row
  else 0

/-- A non-blank frame: the blank mark, the border clear, and the fade rules (`41_frame_geometry_resolver.md` R209 to
R215). -/
def activeFrame (s : State) : State :=
  let cleared := fun row col =>
    inBorder s.frame row col || rowCleared s.params s.frame s.sampled.tvFade s.pipe.fade row
  (s.withOut (clearOut s.params cleared s.out)).withPipe
    { s.pipe with
      prevWasBlank := false
      fade := fadeTable s.params (fadeAfter s.params s.frame s.sampled.tvFade s.pipe.fade) }

/-! ### begin_frame, normal mode -/

/-- The geometry up to the clamps (`41_frame_geometry_resolver.md` R183 to R196). -/
def resolveGeometry (s : State) : State :=
  let s1 := s.withFrame (clampHorizontalStart (resolveSize s.params (resolveStandard s.params s.frame)))
  let s2 := sequenceInterlace s1
  let s3 := s2.withFrame (resolveVerticalStart s2.params s2.frame)
  clampHeight (clampWidth s3)

/-- A produced frame: the worker pool is made ready and the render is dispatched, which is where the render phase begins
(`41_frame_geometry_resolver.md` R180, `20_memory.md` R95; DEDUCED, `notes/assumptions/11.md`). -/
def dispatch (s : State) : State := (startPool s).withPhase .render

/-- Rules R206 to R215 for a frame that is placed. -/
def finishBegin (s : State) : State :=
  if s.frame.isBlank then (if blankSkips s then skip .s2 s else dispatch (blankFrame s))
  else dispatch (activeFrame s)

/-- `begin_frame` in the normal mode after the latch (`41_frame_geometry_resolver.md` R216). -/
def normalBegin (s : State) : State :=
  let s1 := resolveGeometry s
  let vact := activeCount s1.params s1.frame
  if vact > s1.params.maxH then raiseFatal .f1 s1
  else if vact < 0 then skip .s1 s1
  else finishBegin (placeFrame s1)

/-! ### The operations -/

/-- `FMT_BLANK` (`41_frame_geometry_resolver.md` R220): rule R207 or R208. Asked for alone it reads the `TV_FADE` that the last
frame step sampled, not the host's present input (DESIGN CHOICE, `notes/assumptions/30.md`), and for the sink it starts a
frame step (DESIGN CHOICE, `notes/assumptions/27.md`). -/
def execFmtBlank (s : State) : Host.Outcome State Fault Refusal :=
  setupOperation
    (fun s =>
      let s1 := s.withHandedOver false
      if blankSkips s1 then skip .s2 s1 else blankFrame s1) s

/-- What the scan bit sets, whichever it is: the interlace sequencer (R188 to R192), then `C.field` (R201) and
`C.vactive` (R199). Asked for alone, neither scan operation makes the tests of R197 and R198, which are no part of its
rule: `C.vactive` is then `vact`, or half of it, whatever `vact` is, outside 0 to `MAX_H` too (DESIGN CHOICE,
`notes/assumptions/28.md`). -/
def applyScan (serrate : Bool) (s : State) : State :=
  let s1 := sequenceInterlace (s.withFrame { s.frame with serrate := serrate })
  s1.withFrame (resolveField s1.pipe.lowerField (resolveActive s1.params s1.frame))

/-- `SCAN_PROGRESSIVE` (`41_frame_geometry_resolver.md` R221). -/
def execScanProgressive (s : State) : Host.Outcome State Fault Refusal :=
  setupOperation (applyScan false) s

/-- `SCAN_INTERLACED` (`41_frame_geometry_resolver.md` R222), with its W4 for each dropped scanline. -/
def execScanInterlaced (s : State) : Host.Outcome State Fault Refusal :=
  setupOperation (fun s => warnDropped (applyScan true s)) s

/-- `MODE_NORMAL` (`41_frame_geometry_resolver.md` R223): the latch (R181), and the frame takes the filtered path (R182),
which the sampled display mode selects. For the sink it starts a frame step (DESIGN CHOICE,
`notes/assumptions/27.md`). -/
def execModeNormal (s : State) : Host.Outcome State Fault Refusal :=
  setupOperation
    (fun s => latchMode .normal ((s.withHandedOver false).withSampled { s.sampled with displayMode := .normal })) s

end Sys2Proof.Machine
end

