-- ==== Sys2Proof/Machine/Fast.lean ====
section
/-! DEFINITION. The fast display modes (`46_fast_display_modes.md`). -/

namespace Sys2Proof.Machine

/-! ### Fast begin_frame -/

/-- The fast geometry (`46_fast_display_modes.md` R380). -/
def resolveFast (C : FrameConfig) : FrameConfig :=
  { C with
    hresRaw := Int.tdiv (C.xAdd * ((C.heRaw : Int) - C.hsRaw)) 1024
    vresRaw := Int.tdiv (C.yAdd * (((C.veRaw : Int) - C.vsRaw) >>> 1)) 1024 }

/-- The width clamp of a fast frame (`46_fast_display_modes.md` R382). -/
def clampFastWidth (s : State) : State :=
  if s.frame.hresRaw > s.params.maxW then warn .w5 (s.withFrame { s.frame with hresRaw := s.params.maxW }) else s

/-- The height clamp of a fast frame (`46_fast_display_modes.md` R382). -/
def clampFastHeight (s : State) : State :=
  if s.frame.vresRaw > s.params.maxH then warn .w5 (s.withFrame { s.frame with vresRaw := s.params.maxH }) else s

/-- `begin_frame` in a fast mode after the latch (`46_fast_display_modes.md` R380 to R384). -/
def fastBegin (s : State) : State :=
  let s1 := s.withFrame (resolveFast s.frame)
  if s1.frame.hresRaw ≤ 0 ∨ s1.frame.vresRaw ≤ 0 then skip .s3 s1
  else if s1.frame.vcurParity then skip .s4 s1
  else if s1.frame.isBlank then skip .s5 s1
  else dispatch ((clampFastHeight (clampFastWidth s1)).withOut [])

/-! ### Fast pixel decodes -/

/-- `RAW_COLOR`, 16-bit (`46_fast_display_modes.md` R385), under the parameter `FAST_EXPAND`. -/
def rawColour16 (P : Params) (p : BitVec 16) : Colour :=
  match P.fastExpand with
  | .zero => decode5551 p
  | .replicate =>
    ⟨(((p >>> 8) &&& 0xF8) ||| (p >>> 13)).setWidth 8, (((p >>> 3) &&& 0xF8) ||| ((p >>> 8) &&& 7)).setWidth 8,
      (((p <<< 2) &&& 0xF8) ||| ((p >>> 3) &&& 7)).setWidth 8⟩

/-- A grey of one level. -/
def grey (v : Byte) : Colour := ⟨v, v, v⟩

/-- `DEPTH` (`46_fast_display_modes.md` R387): the high byte of the depth word. -/
def depthColour (p : BitVec 16) : Colour := grey (p.extractLsb' 8 8)

/-- `COVERAGE` (`46_fast_display_modes.md` R388): the 3-bit coverage in bits [7:5]. -/
def coverageColour (p : BitVec 16) (h : BitVec 2) : Colour := grey (coverage5551 p h ++ (0 : BitVec 5))

/-- The decode of pixel `x` of line `y` as 16-bit raw colour. -/
def fastRaw16 (P : Params) (m : Memory) (C : FrameConfig) (y x : Nat) : Colour :=
  rawColour16 P (read16 P m (C.base16 + y * C.w + x))

/-- The decode of pixel `x` of line `y` as 32-bit raw colour (`46_fast_display_modes.md` R386). -/
def fastRaw32 (P : Params) (m : Memory) (C : FrameConfig) (y x : Nat) : Colour :=
  decode8888 (read32 P m (C.base32 + y * C.w + x))

/-- The decode of pixel `x` of line `y` as depth. -/
def fastDepth (P : Params) (m : Memory) (zbAddress : Nat) (C : FrameConfig) (y x : Nat) : Colour :=
  depthColour (read16 P m ((zbAddress >>> 1 : Nat) + y * C.w + x))

/-- The decode of pixel `x` of line `y` as coverage. -/
def fastCoverage (P : Params) (m : Memory) (C : FrameConfig) (y x : Nat) : Colour :=
  let pair := pairRead16 P m (C.base16 + y * C.w + x)
  coverageColour pair.1 pair.2

/-- `decode(y, x)` of a fast frame (`46_fast_display_modes.md` R389). `NORMAL` has no fast decode: that arm is not
reached by a fast render. -/
def fastColour (P : Params) (m : Memory) (c : HostConfig) (C : FrameConfig) (y x : Nat) : Colour :=
  match c.displayMode with
  | .normal => ⟨0, 0, 0⟩
  | .rawColor => if C.is32 then fastRaw32 P m C y x else fastRaw16 P m C y x
  | .depth => fastDepth P m c.zbAddress C y x
  | .coverage => fastCoverage P m C y x

/-! ### The operations

Each is one whole pixel: decode, gamma and dither, write (`46_fast_display_modes.md` R389). -/

/-- The store of one fast pixel of a decoded colour, by the worker that owns line `y`. The rules of the four operations
take `y` and `x` inside the frame (`46_fast_display_modes.md` R389, R392 to R395); for a pixel outside it, inside the
raster or not, the specification states no effect, and nothing happens (DESIGN CHOICE, `notes/assumptions/29.md`). -/
def fastPixel (y x : Nat) (c : Colour) (s : State) : State :=
  if insideFrame s y x then
    let k := y % workerCount s.params s.sampled
    let wk := getWorker s.params s.workers k
    let done := finishPixel s.params s.frame.gdMode s.draws y x wk.seed c
    ((s.withOut (writeOut s.params y x (pack done.1) s.out)).withWorkers
        (putWorker s.params k { wk with seed := done.2 } s.workers)).withScan { s.scan with y := y, i := x + 1 }
  else s

/-- `RAW_COLOR16` (`46_fast_display_modes.md` R392). -/
def execRawColor16 (y x : Nat) (s : State) : Host.Outcome State Fault Refusal :=
  phaseOperation .render (fun s => fastPixel y x (fastRaw16 s.params s.memory s.frame y x) s) s

/-- `RAW_COLOR32` (`46_fast_display_modes.md` R393). -/
def execRawColor32 (y x : Nat) (s : State) : Host.Outcome State Fault Refusal :=
  phaseOperation .render (fun s => fastPixel y x (fastRaw32 s.params s.memory s.frame y x) s) s

/-- `DEPTH` (`46_fast_display_modes.md` R394). -/
def execDepth (y x : Nat) (s : State) : Host.Outcome State Fault Refusal :=
  phaseOperation .render (fun s => fastPixel y x (fastDepth s.params s.memory s.sampled.zbAddress s.frame y x) s) s

/-- `COVERAGE` (`46_fast_display_modes.md` R395). -/
def execCoverage (y x : Nat) (s : State) : Host.Outcome State Fault Refusal :=
  phaseOperation .render (fun s => fastPixel y x (fastCoverage s.params s.memory s.frame y x) s) s

end Sys2Proof.Machine
end

