-- ==== Sys2Proof/Machine/Render.lean ====
section
/-! DEFINITION. The scanline sequencer and the row partition (`45_scanline_sequencer_cache.md` R340 to R349), for normal
and fast frames. -/

namespace Sys2Proof.Machine

/-! ### Which scanlines a frame renders, and who owns them -/

/-- The render does nothing: a blank normal frame, or one with no active pixels (`45_scanline_sequencer_cache.md`
R340). -/
def rendersNothing (s : State) : Bool :=
  decide (s.sampled.displayMode = .normal) && (s.frame.isBlank || !s.frame.validh)

/-- The scanlines a frame renders, in increasing order: in the normal mode those whose row is inside the buffer
(`45_scanline_sequencer_cache.md` R340, R342), in a fast mode every line (`46_fast_display_modes.md` R389). -/
def renderedScanlines (s : State) : List Nat :=
  match s.sampled.displayMode with
  | .normal => (frameScanlines s.frame).filter (rowKept s.params s.frame)
  | .rawColor | .depth | .coverage => List.range s.frame.vresRaw.toNat

/-- The scanlines worker `k` of `W` owns, in increasing order (`45_scanline_sequencer_cache.md` R345). -/
def ownedScanlines (W : Nat) (ys : List Nat) (k : Nat) : List Nat := ys.filter fun y => decide (y % W = k)

/-- The scanlines worker `k` completes: all it owns, or the first few when it fails (`60_exceptions.md` R412). -/
def completedScanlines (failures : List (Nat × Nat)) (W : Nat) (ys : List Nat) (k : Nat) : List Nat :=
  match failures.lookup k with
  | none => ownedScanlines W ys k
  | some n => (ownedScanlines W ys k).take n

/-- A worker of the frame fails (`60_exceptions.md` R412). The form of the input: DESIGN CHOICE (`notes/assumptions/15.md`). -/
def anyWorkerFails (failures : List (Nat × Nat)) (W : Nat) : Bool := failures.any fun f => decide (f.1 < W)

/-! ### One scanline -/

/-- What a worker carries along a scanline: the output buffer and itself. -/
structure LineRun where
  out : List (Nat × Word)
  worker : Worker
  deriving DecidableEq, Repr

/-- One pixel of a normal scanline (`45_scanline_sequencer_cache.md` R341). -/
def normalPixelStep (P : Params) (m : Memory) (C : FrameConfig) (draws y : Nat) (run : LineRun) (i : Nat) : LineRun :=
  let px := cachedPixel P m C draws y i run.worker
  { out := writeOut P (outRow C y) (C.hStart + i) px.1 run.out, worker := px.2 }

/-- A normal scanline: the promotion, then its pixels in increasing `i` (`45_scanline_sequencer_cache.md` R341, R343,
R352). -/
def normalLine (P : Params) (m : Memory) (C : FrameConfig) (draws y : Nat) (run : LineRun) : LineRun :=
  let started : LineRun :=
    { run with worker := { run.worker with caches := promote P (srow C y) run.worker.caches } }
  (List.range C.hres.toNat).foldl (normalPixelStep P m C draws y) started

/-- One pixel of a fast line (`46_fast_display_modes.md` R389). -/
def fastPixelStep (P : Params) (m : Memory) (c : HostConfig) (C : FrameConfig) (draws y : Nat) (run : LineRun)
    (x : Nat) : LineRun :=
  let done := finishPixel P C.gdMode draws y x run.worker.seed (fastColour P m c C y x)
  { out := writeOut P y x (pack done.1) run.out, worker := { run.worker with seed := done.2 } }

/-- A fast line: its pixels in increasing `x`; no cache is used (`46_fast_display_modes.md` R391). -/
def fastLine (P : Params) (m : Memory) (c : HostConfig) (C : FrameConfig) (draws y : Nat) (run : LineRun) : LineRun :=
  (List.range C.hresRaw.toNat).foldl (fastPixelStep P m c C draws y) run

/-- The run of a line of the frame in the sampled display mode. -/
def lineRun (s : State) (y : Nat) (run : LineRun) : LineRun :=
  match s.sampled.displayMode with
  | .normal => normalLine s.params s.memory s.frame s.draws y run
  | .rawColor | .depth | .coverage => fastLine s.params s.memory s.sampled s.frame s.draws y run

/-- Scanline `y` rendered by the worker that owns it, whose next scanline is `y + W` (`10_state.md` R32). -/
def renderScanline (s : State) (y : Nat) : State :=
  let W := workerCount s.params s.sampled
  let done := lineRun s y { out := s.out, worker := getWorker s.params s.workers (y % W) }
  ((s.withOut done.out).withWorkers (putWorker s.params (y % W) done.worker s.workers)).withScan
    { s.scan with y := y + W, i := 0 }

/-! ### The whole render -/

/-- Worker `k` of the frame runs its scanlines to completion. -/
def runWorker (W : Nat) (ys : List Nat) (s : State) (k : Nat) : State :=
  (completedScanlines s.workerFailures W ys k).foldl renderScanline s

/-- The parallel region: every worker runs its scanlines (`45_scanline_sequencer_cache.md` R345, R347). The workers are run in
increasing number; every order gives the same `Out` (R348). DESIGN CHOICE, safe (`notes/assumptions/14.md`). -/
def runWorkers (s : State) : State :=
  let W := workerCount s.params s.sampled
  (List.range W).foldl (runWorker W (renderedScanlines s)) s

/-- The join: the present phase follows (`41_frame_geometry_resolver.md` R180), with `y` at scanline number `n`. -/
def joinWorkers (n : Nat) (s : State) : State := s.withScan { phase := .present, y := n, i := 0 }

/-- The render of a frame after dispatch, up to the join (`45_scanline_sequencer_cache.md` R340, R347): F2 at the join when a
worker failed (`60_exceptions.md` R412), else every worker has ended and `y` has reached the frame's scanline count
(`10_state.md` R32). -/
def renderFrame (s : State) : State :=
  if rendersNothing s then joinWorkers 0 s
  else
    let s1 := runWorkers s
    if anyWorkerFails s1.workerFailures (workerCount s1.params s1.sampled) then raiseFatal .f2 s1
    else joinWorkers (scanlineCount s) s1

/-! ### The operations -/

/-- `RENDER` (`45_scanline_sequencer_cache.md` R358). -/
def execRender (s : State) : Host.Outcome State Fault Refusal :=
  phaseOperation .render renderFrame s

/-- `SCANLINE` (`45_scanline_sequencer_cache.md` R359): a scanline the frame does not render is not rendered
(DEDUCED, `notes/assumptions/16.md`). -/
def execScanline (y : Nat) (s : State) : Host.Outcome State Fault Refusal :=
  phaseOperation .render (fun s => if (renderedScanlines s).contains y then renderScanline s y else s) s

end Sys2Proof.Machine
end

