-- ==== Sys2Proof/Machine/Frame.lean ====
section
/-! DEFINITION. The frame step (`41_frame_geometry_resolver.md` R180) and `begin_frame` as wholes. -/

namespace Sys2Proof.Machine

/-- The start of a frame step: phase `BEGIN`, the configuration inputs sampled (`70_reset_and_hazards.md` R435), the sink's
interval over (`44_gamma_dither_output.md` R326), and the host's next dither draws. -/
def startFrameStep (s : State) : State :=
  (((s.withScan { phase := .begin, y := 0, i := 0 }).withSampled s.config).withHandedOver false).withDraws
    (Config.nextDraws s.draws)

/-- `begin_frame` (`41_frame_geometry_resolver.md` R216): capture, decode, latch, then the path of the display mode
(R182). -/
def beginFrame (s : State) : State :=
  let s1 := captureAndDecode (startFrameStep s)
  let s2 := latchMode s1.sampled.displayMode s1
  match s2.sampled.displayMode with
  | .normal => normalBegin s2
  | .rawColor | .depth | .coverage => fastBegin s2

/-- What follows `begin_frame` in a frame step: render and present, unless a Skip or a Fatal ended it
(`41_frame_geometry_resolver.md` R180). -/
def afterBegin (s : State) : State :=
  if s.scan.phase = .render then
    let s1 := renderFrame s
    if s1.scan.phase = .present then presentFrame s1 else s1
  else s

/-- One frame step (`41_frame_geometry_resolver.md` R180). -/
def frameStep (s : State) : State := afterBegin (beginFrame s)

/-! ### The operations -/

/-- `BEGIN_FRAME` (`41_frame_geometry_resolver.md` R218). -/
def execBeginFrame (s : State) : Host.Outcome State Fault Refusal :=
  phaseOperation .idle beginFrame s

/-- `FRAME_STEP` (`41_frame_geometry_resolver.md` R219). -/
def execFrameStep (s : State) : Host.Outcome State Fault Refusal :=
  phaseOperation .idle frameStep s

end Sys2Proof.Machine
end

