-- ==== Sys2Proof/Syntax.lean ====
section
/-! DEFINITION. The operations of the block, one constructor per row of `spec/opcode_table.json`, in the table's order.
The block has no instruction stream (`30_encoding.md`, introduction): an operation is what a STATUS word, a
configuration value or a host statement selects in one stage (`30_encoding.md` R131). -/

namespace Sys2Proof

/-- One operation. `idx` is a pixel index (an integer, `20_memory.md` R88); `y` a scanline or line index; `i` and `x` a
pixel index within it; `slot` and `corner` name the pixel latch that receives a result
(DESIGN CHOICE, `notes/assumptions/6.md`). -/
inductive Instr where
  /-- `FMT_BLANK`, R220 -/
  | fmtBlank
  /-- `FMT_RESERVED`, R175 -/
  | fmtReserved
  /-- `FETCH_5551`, R269 -/
  | fetch5551 (idx : Int)
  /-- `FETCH_8888`, R270 -/
  | fetch8888 (idx : Int)
  /-- `GD_NONE`, R328 -/
  | gdNone
  /-- `GD_DITHER`, R329 -/
  | gdDither
  /-- `GD_GAMMA`, R330 -/
  | gdGamma
  /-- `GD_GAMMA_DITHER`, R331 -/
  | gdGammaDither
  /-- `DIVOT_OFF`, R303 -/
  | divotOff (corner : Corner)
  /-- `DIVOT_ON`, R304 -/
  | divotOn (corner : Corner)
  /-- `SCAN_PROGRESSIVE`, R221 -/
  | scanProgressive
  /-- `SCAN_INTERLACED`, R222 -/
  | scanInterlaced
  /-- `AA_MODE_00`, R176 -/
  | aaMode00
  /-- `AA_MODE_01`, R177 -/
  | aaMode01
  /-- `AA_MODE_10`, R178 -/
  | aaMode10
  /-- `AA_MODE_11`, R179 -/
  | aaMode11
  /-- `RESOLVE_PASS`, R271 -/
  | resolvePass (slot : Slot)
  /-- `RESTORE16`, R272 -/
  | restore16 (slot : Slot) (line : Line)
  /-- `RESTORE32`, R273 -/
  | restore32 (slot : Slot) (line : Line)
  /-- `BLEND16`, R274 -/
  | blend16 (slot : Slot) (line : Line)
  /-- `BLEND32`, R275 -/
  | blend32 (slot : Slot) (line : Line)
  /-- `LERP`, R305 -/
  | lerp
  /-- `NO_LERP`, R306 -/
  | noLerp
  /-- `HBLANK_CLIP`, R332 -/
  | hblankClip (i : Nat)
  /-- `PIXEL_WRITE`, R333 -/
  | pixelWrite
  /-- `FETCH_STATE`, R276 -/
  | fetchState (y : Nat)
  /-- `SCANLINE`, R359 -/
  | scanline (y : Nat)
  /-- `WREG`, R174 -/
  | wreg (reg : RegName) (v : Word)
  /-- `CFG`, R444 -/
  | cfg (setting : CfgSetting)
  /-- `FRAME_STEP`, R219 -/
  | frameStep
  /-- `BEGIN_FRAME`, R218 -/
  | beginFrame
  /-- `RENDER`, R358 -/
  | render
  /-- `PRESENT`, R334 -/
  | present
  /-- `MODE_NORMAL`, R223 -/
  | modeNormal
  /-- `RAW_COLOR16`, R392 -/
  | rawColor16 (y x : Nat)
  /-- `RAW_COLOR32`, R393 -/
  | rawColor32 (y x : Nat)
  /-- `DEPTH`, R394 -/
  | depth (y x : Nat)
  /-- `COVERAGE`, R395 -/
  | coverage (y x : Nat)
  deriving DecidableEq, Repr

end Sys2Proof
end

