-- ==== Sys2Proof/Machine/Dispatch.lean ====
section
/-! DEFINITION. One arm per operation, each a direct call of its meaning. -/

namespace Sys2Proof.Machine

/-- What an operation does. -/
def exec (i : Instr) (s : State) : Host.Outcome State Fault Refusal :=
  match i with
  | .fmtBlank => Sys2Proof.Machine.execFmtBlank s
  | .fmtReserved => Sys2Proof.Machine.execFmtReserved s
  | .fetch5551 idx => Sys2Proof.Machine.execFetch5551 idx s
  | .fetch8888 idx => Sys2Proof.Machine.execFetch8888 idx s
  | .gdNone => Sys2Proof.Machine.execGdNone s
  | .gdDither => Sys2Proof.Machine.execGdDither s
  | .gdGamma => Sys2Proof.Machine.execGdGamma s
  | .gdGammaDither => Sys2Proof.Machine.execGdGammaDither s
  | .divotOff corner => Sys2Proof.Machine.execDivotOff corner s
  | .divotOn corner => Sys2Proof.Machine.execDivotOn corner s
  | .scanProgressive => Sys2Proof.Machine.execScanProgressive s
  | .scanInterlaced => Sys2Proof.Machine.execScanInterlaced s
  | .aaMode00 => Sys2Proof.Machine.execAaMode00 s
  | .aaMode01 => Sys2Proof.Machine.execAaMode01 s
  | .aaMode10 => Sys2Proof.Machine.execAaMode10 s
  | .aaMode11 => Sys2Proof.Machine.execAaMode11 s
  | .resolvePass slot => Sys2Proof.Machine.execResolvePass slot s
  | .restore16 slot line => Sys2Proof.Machine.execRestore16 slot line s
  | .restore32 slot line => Sys2Proof.Machine.execRestore32 slot line s
  | .blend16 slot line => Sys2Proof.Machine.execBlend16 slot line s
  | .blend32 slot line => Sys2Proof.Machine.execBlend32 slot line s
  | .lerp => Sys2Proof.Machine.execLerp s
  | .noLerp => Sys2Proof.Machine.execNoLerp s
  | .hblankClip n => Sys2Proof.Machine.execHblankClip n s
  | .pixelWrite => Sys2Proof.Machine.execPixelWrite s
  | .fetchState y => Sys2Proof.Machine.execFetchState y s
  | .scanline y => Sys2Proof.Machine.execScanline y s
  | .wreg reg v => Sys2Proof.Machine.execWreg reg v s
  | .cfg setting => Sys2Proof.Machine.execCfg setting s
  | .frameStep => Sys2Proof.Machine.execFrameStep s
  | .beginFrame => Sys2Proof.Machine.execBeginFrame s
  | .render => Sys2Proof.Machine.execRender s
  | .present => Sys2Proof.Machine.execPresent s
  | .modeNormal => Sys2Proof.Machine.execModeNormal s
  | .rawColor16 y x => Sys2Proof.Machine.execRawColor16 y x s
  | .rawColor32 y x => Sys2Proof.Machine.execRawColor32 y x s
  | .depth y x => Sys2Proof.Machine.execDepth y x s
  | .coverage y x => Sys2Proof.Machine.execCoverage y x s

end Sys2Proof.Machine
end

