-- ==== Sys2Proof/WellFormed.lean ====
section
/-! DEFINITION. Which operations can be written down as a request: the operand ranges. -/

namespace Sys2Proof

/-- A pixel index lies in [-2^27, 2^27) (`41_frame_geometry_resolver.md` R205). -/
def pixelIndexOk (idx : Int) : Bool := decide (-(2 ^ 27 : Int) ≤ idx) && decide (idx < (2 ^ 27 : Int))

/-- A scanline or pixel number fits the request's 16-bit operand field (DESIGN CHOICE, `notes/assumptions/7.md`);
the raster of `00_scope.md` R9 is far smaller. -/
def positionOk (n : Nat) : Bool := decide (n < 2 ^ 16)

/-- The value of a configuration write: a worker count that fits the request's 32-bit operand word (DESIGN CHOICE,
`notes/assumptions/32.md`), and a depth-buffer address in [0, 2^24) (`20_memory.md` R92). -/
def cfgSettingOk : CfgSetting → Bool
  | .displayMode _ => true
  | .tvFade _ => true
  | .numWorkers n => decide (n < 2 ^ 32)
  | .widescreen _ => true
  | .traceRecord _ => true
  | .zbAddress a => decide (a < 2 ^ 24)

/-- The operands of an operation are in range. -/
def Instr.wellFormed : Instr → Bool
  | .fmtBlank => true
  | .fmtReserved => true
  | .fetch5551 idx => pixelIndexOk idx
  | .fetch8888 idx => pixelIndexOk idx
  | .gdNone => true
  | .gdDither => true
  | .gdGamma => true
  | .gdGammaDither => true
  | .divotOff _ => true
  | .divotOn _ => true
  | .scanProgressive => true
  | .scanInterlaced => true
  | .aaMode00 => true
  | .aaMode01 => true
  | .aaMode10 => true
  | .aaMode11 => true
  | .resolvePass _ => true
  | .restore16 _ _ => true
  | .restore32 _ _ => true
  | .blend16 _ _ => true
  | .blend32 _ _ => true
  | .lerp => true
  | .noLerp => true
  | .hblankClip i => positionOk i
  | .pixelWrite => true
  | .fetchState y => positionOk y
  | .scanline y => positionOk y
  | .wreg _ _ => true
  | .cfg setting => cfgSettingOk setting
  | .frameStep => true
  | .beginFrame => true
  | .render => true
  | .present => true
  | .modeNormal => true
  | .rawColor16 y x => positionOk y && positionOk x
  | .rawColor32 y x => positionOk y && positionOk x
  | .depth y x => positionOk y && positionOk x
  | .coverage y x => positionOk y && positionOk x

end Sys2Proof
end

