-- ==== Sys2Proof/Decode.lean ====
section
/-! DEFINITION. The decoder, total on any words and rejecting by name, and after it the encoder.

A request is four words: the STATUS word whose fields select the operation (`30_encoding.md` R111), the code of the
stage that reads it (R131), and two operand words. The STATUS patterns are the specification's; the stage codes and the
operand words are the model's (DESIGN CHOICE, `notes/assumptions/7.md`). -/

namespace Sys2Proof

/-! ### The names behind the codes -/

/-- The code of a stage in the second word of a request. -/
def stageCode : Stage → Nat
  | .frameKind => 0 | .aaMode => 1 | .resolveFull => 2 | .resolvePartial => 3 | .divot => 4 | .gammaDither => 5
  | .scan => 6 | .rawColor => 7 | .lerp => 8 | .noLerp => 9 | .hblankClip => 10 | .pixelWrite => 11
  | .fetchState => 12 | .scanline => 13 | .wreg => 14 | .cfg => 15 | .frameStep => 16 | .beginFrame => 17
  | .render => 18 | .present => 19 | .modeNormal => 20 | .depth => 21 | .coverage => 22

/-- The stage a code names. -/
def stageOfCode : Nat → Option Stage
  | 0 => some .frameKind | 1 => some .aaMode | 2 => some .resolveFull | 3 => some .resolvePartial | 4 => some .divot
  | 5 => some .gammaDither | 6 => some .scan | 7 => some .rawColor | 8 => some .lerp | 9 => some .noLerp
  | 10 => some .hblankClip | 11 => some .pixelWrite | 12 => some .fetchState | 13 => some .scanline
  | 14 => some .wreg | 15 => some .cfg | 16 => some .frameStep | 17 => some .beginFrame | 18 => some .render
  | 19 => some .present | 20 => some .modeNormal | 21 => some .depth | 22 => some .coverage
  | _ => none

/-- The index of a display register (`30_encoding.md` R110). -/
def regIndex : RegName → Nat
  | .status => 0 | .origin => 1 | .width => 2 | .vIntr => 3 | .vCurrent => 4 | .burst => 5 | .vSync => 6
  | .hSync => 7 | .leap => 8 | .hStart => 9 | .vStart => 10 | .vBurst => 11 | .xScale => 12 | .yScale => 13

/-- The display register at an index (`30_encoding.md` R110). -/
def regOfIndex : Nat → Option RegName
  | 0 => some .status | 1 => some .origin | 2 => some .width | 3 => some .vIntr | 4 => some .vCurrent
  | 5 => some .burst | 6 => some .vSync | 7 => some .hSync | 8 => some .leap | 9 => some .hStart
  | 10 => some .vStart | 11 => some .vBurst | 12 => some .xScale | 13 => some .yScale
  | _ => none

/-- The number of a display mode (`30_encoding.md` R132). -/
def modeCode : DisplayMode → Nat
  | .normal => 0 | .rawColor => 1 | .depth => 2 | .coverage => 3

/-- The display mode of a number (`30_encoding.md` R132). -/
def modeOfCode : Nat → Option DisplayMode
  | 0 => some .normal | 1 => some .rawColor | 2 => some .depth | 3 => some .coverage
  | _ => none

/-- The code of a latch slot in an operand word. -/
def slotCode : Slot → Nat
  | .left => 0 | .centre => 1 | .right => 2

/-- The latch slot of a code. -/
def slotOfCode : Nat → Option Slot
  | 0 => some .left | 1 => some .centre | 2 => some .right
  | _ => none

/-- The code of a line in an operand word. -/
def lineCode : Line → Nat
  | .current => 0 | .next => 1

/-- The line of a code. -/
def lineOfCode : Nat → Option Line
  | 0 => some .current | 1 => some .next
  | _ => none

/-- The code of a corner in an operand word. -/
def cornerCode : Corner → Nat
  | .c00 => 0 | .c01 => 1 | .c10 => 2 | .c11 => 3

/-- The corner of a code. -/
def cornerOfCode : Nat → Option Corner
  | 0 => some .c00 | 1 => some .c01 | 2 => some .c10 | 3 => some .c11
  | _ => none

/-- A flag of one bit written as 0 or 1. -/
def flagCode (b : Bool) : Nat := if b then 1 else 0

/-- The flag written as 0 or 1; anything else is rejected (`70_reset_and_hazards.md` R444). -/
def flagOfCode : Nat → Option Bool
  | 0 => some false | 1 => some true
  | _ => none

/-- The name code and the value word of a configuration write. -/
def cfgWords : CfgSetting → Nat × Nat
  | .displayMode m => (0, modeCode m)
  | .tvFade on => (1, flagCode on)
  | .numWorkers n => (2, n)
  | .widescreen on => (3, flagCode on)
  | .traceRecord on => (4, flagCode on)
  | .zbAddress a => (5, a)

/-- The configuration write of a name code and a value word. -/
def cfgOfWords (name value : Nat) : Option CfgSetting :=
  match name with
  | 0 => (modeOfCode value).map CfgSetting.displayMode
  | 1 => (flagOfCode value).map CfgSetting.tvFade
  | 2 => some (.numWorkers value)
  | 3 => (flagOfCode value).map CfgSetting.widescreen
  | 4 => (flagOfCode value).map CfgSetting.traceRecord
  | 5 => if value < 2 ^ 24 then some (.zbAddress value) else none
  | _ => none

/-! ### The decoder -/

/-- A present operand, or the rejection `badOperand`. -/
def operand {α : Type} : Option α → Except DecodeReject α
  | some v => .ok v
  | none => .error .badOperand

/-- The pixel index in an operand word, two's complement. -/
def indexOperand (a : Word) : Except DecodeReject Int :=
  if pixelIndexOk a.toInt then .ok a.toInt else .error .badOperand

/-- The scanline or pixel number in an operand word. -/
def positionOperand (a : Word) : Except DecodeReject Nat :=
  if positionOk a.toNat then .ok a.toNat else .error .badOperand

/-- The operation of a line and a pixel number. -/
def pixelOperation (op : Nat → Nat → Instr) (a b : Word) : Except DecodeReject Instr :=
  match positionOperand a, positionOperand b with
  | .ok y, .ok x => .ok (op y x)
  | _, _ => .error .badOperand

/-- The operation of a destination slot and a line. -/
def resolveOperation (op : Slot → Line → Instr) (a b : Word) : Except DecodeReject Instr :=
  match slotOfCode a.toNat, lineOfCode b.toNat with
  | some slot, some line => .ok (op slot line)
  | _, _ => .error .badOperand

/-- `STATUS[1:0]` (`30_encoding.md` R112). -/
def statusType (status : Word) : Nat := (status.extractLsb' 0 2).toNat

/-- The operation a STATUS word selects in one stage (`30_encoding.md` R131), with the operands of the request. A coverage
resolve has two stages, one for a sample of coverage 7 and one for a sample of less (`42_fetch_coverage_resolve.md`
R247). -/
def decodeStage (stage : Stage) (status a b : Word) : Except DecodeReject Instr :=
  match stage with
  | .frameKind =>
    match statusType status with
    | 0 => .ok .fmtBlank
    | 1 => .ok .fmtReserved
    | 2 => (indexOperand a).map Instr.fetch5551
    | _ => (indexOperand a).map Instr.fetch8888
  | .aaMode =>
    match (status.extractLsb' 8 2).toNat with
    | 0 => .ok .aaMode00
    | 1 => .ok .aaMode01
    | 2 => .ok .aaMode10
    | _ => .ok .aaMode11
  | .resolveFull =>
    match status.getLsbD 16, statusType status with
    | false, _ => (operand (slotOfCode a.toNat)).map Instr.resolvePass
    | true, 2 => resolveOperation Instr.restore16 a b
    | true, 3 => resolveOperation Instr.restore32 a b
    | true, _ => .error .noOperation
  | .resolvePartial =>
    match status.getLsbD 9, statusType status with
    | false, 2 => resolveOperation Instr.blend16 a b
    | false, 3 => resolveOperation Instr.blend32 a b
    | _, _ => .error .noOperation
  | .divot =>
    match status.getLsbD 4 with
    | false => (operand (cornerOfCode a.toNat)).map Instr.divotOff
    | true => (operand (cornerOfCode a.toNat)).map Instr.divotOn
  | .gammaDither =>
    match (status.extractLsb' 2 2).toNat with
    | 0 => .ok .gdNone
    | 1 => .ok .gdDither
    | 2 => .ok .gdGamma
    | _ => .ok .gdGammaDither
  | .scan =>
    match status.getLsbD 6 with
    | false => .ok .scanProgressive
    | true => .ok .scanInterlaced
  | .rawColor =>
    match statusType status with
    | 2 => pixelOperation Instr.rawColor16 a b
    | 3 => pixelOperation Instr.rawColor32 a b
    | _ => .error .noOperation
  | .lerp => if (status.extractLsb' 8 2).toNat = 3 then .error .noOperation else .ok .lerp
  | .noLerp => .ok .noLerp
  | .hblankClip => (positionOperand a).map Instr.hblankClip
  | .pixelWrite => .ok .pixelWrite
  | .fetchState => (positionOperand a).map Instr.fetchState
  | .scanline => (positionOperand a).map Instr.scanline
  | .wreg => (operand (regOfIndex a.toNat)).map fun reg => Instr.wreg reg b
  | .cfg => (operand (cfgOfWords a.toNat b.toNat)).map Instr.cfg
  | .frameStep => .ok .frameStep
  | .beginFrame => .ok .beginFrame
  | .render => .ok .render
  | .present => .ok .present
  | .modeNormal => .ok .modeNormal
  | .depth => pixelOperation Instr.depth a b
  | .coverage => pixelOperation Instr.coverage a b

/-- The operation a request asks for. -/
def decode : Request → Except DecodeReject Instr
  | [status, stage, a, b] =>
    match stageOfCode stage.toNat with
    | some st => decodeStage st status a b
    | none => .error .unknownStage
  | _ => .error .wrongLength

/-- The store a request asks for, where it is one of the host statements `MEM16`, `MEM32` and `HID`
(`30_encoding.md` R135), whose codes follow the stages'. -/
def decodeStore : Request → Option HostStore
  | [_, code, a, b] =>
    match code.toNat with
    | 23 => if b.toNat < 2 ^ 16 then some (.mem16 a.toNat (b.setWidth 16)) else none
    | 24 => some (.mem32 a.toNat b)
    | 25 => if b.toNat < 4 then some (.hid a.toNat (b.setWidth 2)) else none
    | _ => none
  | _ => none

/-! ### The encoder -/

/-- A number in the 32-bit operand word of a request. The specification bounds neither a worker count (`00_scope.md` R12,
`70_reset_and_hazards.md` R444) nor the index of a host store (`30_encoding.md` R135): a number of 2^32 or more is sent as
2^32 - 1, and never wraps to a small one. A worker count then splits every frame of fewer scanlines as the greater count
does, and a store falls outside every memory of less than 2^33 bytes (DESIGN CHOICE, `notes/assumptions/32.md`). -/
def operandWord (n : Nat) : Word := BitVec.ofNat 32 (min n (2 ^ 32 - 1))

/-- A request from its STATUS pattern, its stage and its two operands. -/
def request (status : Nat) (stage : Stage) (a b : Nat) : Request :=
  [BitVec.ofNat 32 status, BitVec.ofNat 32 (stageCode stage), operandWord a, operandWord b]

/-- A pixel index as the number of its two's complement word; one that has none is sent as the nearest that has, which is no
pixel index either (`41_frame_geometry_resolver.md` R205). -/
def indexWord (idx : Int) : Nat := (BitVec.ofInt 32 (max (-(2 ^ 31)) (min idx (2 ^ 31 - 1)))).toNat

/-- The request of an operation: the STATUS pattern is the row's `match` in `spec/opcode_table.json`. A worker count of 2^32 or
more is sent as 2^32 - 1 (`operandWord`; DESIGN CHOICE, `notes/assumptions/32.md`). -/
def encode : Instr → Request
  | .fmtBlank => request 0x0 .frameKind 0 0
  | .fmtReserved => request 0x1 .frameKind 0 0
  | .fetch5551 idx => request 0x2 .frameKind (indexWord idx) 0
  | .fetch8888 idx => request 0x3 .frameKind (indexWord idx) 0
  | .gdNone => request 0x0 .gammaDither 0 0
  | .gdDither => request 0x4 .gammaDither 0 0
  | .gdGamma => request 0x8 .gammaDither 0 0
  | .gdGammaDither => request 0xC .gammaDither 0 0
  | .divotOff corner => request 0x0 .divot (cornerCode corner) 0
  | .divotOn corner => request 0x10 .divot (cornerCode corner) 0
  | .scanProgressive => request 0x0 .scan 0 0
  | .scanInterlaced => request 0x40 .scan 0 0
  | .aaMode00 => request 0x0 .aaMode 0 0
  | .aaMode01 => request 0x100 .aaMode 0 0
  | .aaMode10 => request 0x200 .aaMode 0 0
  | .aaMode11 => request 0x300 .aaMode 0 0
  | .resolvePass slot => request 0x0 .resolveFull (slotCode slot) 0
  | .restore16 slot line => request 0x10002 .resolveFull (slotCode slot) (lineCode line)
  | .restore32 slot line => request 0x10003 .resolveFull (slotCode slot) (lineCode line)
  | .blend16 slot line => request 0x2 .resolvePartial (slotCode slot) (lineCode line)
  | .blend32 slot line => request 0x3 .resolvePartial (slotCode slot) (lineCode line)
  | .lerp => request 0x0 .lerp 0 0
  | .noLerp => request 0x0 .noLerp 0 0
  | .hblankClip i => request 0x0 .hblankClip i 0
  | .pixelWrite => request 0x0 .pixelWrite 0 0
  | .fetchState y => request 0x0 .fetchState y 0
  | .scanline y => request 0x0 .scanline y 0
  | .wreg reg v => request 0x0 .wreg (regIndex reg) v.toNat
  | .cfg setting => request 0x0 .cfg (cfgWords setting).1 (cfgWords setting).2
  | .frameStep => request 0x0 .frameStep 0 0
  | .beginFrame => request 0x0 .beginFrame 0 0
  | .render => request 0x0 .render 0 0
  | .present => request 0x0 .present 0 0
  | .modeNormal => request 0x0 .modeNormal 0 0
  | .rawColor16 y x => request 0x2 .rawColor y x
  | .rawColor32 y x => request 0x3 .rawColor y x
  | .depth y x => request 0x0 .depth y x
  | .coverage y x => request 0x0 .coverage y x

/-- The request of a host store. An index of 2^32 or more is sent as 2^32 - 1 (`operandWord`; DESIGN CHOICE,
`notes/assumptions/32.md`). -/
def encodeStore : HostStore → Request
  | .mem16 i v => [0, 23, operandWord i, v.setWidth 32]
  | .mem32 i v => [0, 24, operandWord i, v]
  | .hid i h => [0, 25, operandWord i, h.setWidth 32]

/-! ### Words of the opcode table

A row of `spec/opcode_table.json` gives bits of the STATUS word only, so several rows share one word: the stage that
tells them apart is chosen by how many bytes of STATUS the row fixes and by the row with the most bits that match
(DESIGN CHOICE, `notes/assumptions/8.md`). -/

/-- The rows that fix STATUS bits, as (bytes of STATUS, mask, match, stage), in the order they are tried: within a width,
rows with a set bit first. -/
def tableRows : List (Nat × Nat × Nat × Stage) :=
  [ (24, 0x10003, 0x10002, .resolveFull), (24, 0x10003, 0x10003, .resolveFull), (24, 0x10000, 0x0, .resolveFull),
    (16, 0x300, 0x100, .aaMode), (16, 0x300, 0x200, .aaMode), (16, 0x300, 0x300, .aaMode),
    (16, 0x203, 0x2, .resolvePartial), (16, 0x203, 0x3, .resolvePartial), (16, 0x300, 0x0, .aaMode),
    (8, 0x40, 0x40, .scan), (8, 0x10, 0x10, .divot), (8, 0xC, 0xC, .gammaDither), (8, 0xC, 0x8, .gammaDither),
    (8, 0xC, 0x4, .gammaDither), (8, 0x3, 0x3, .frameKind), (8, 0x3, 0x2, .frameKind), (8, 0x3, 0x1, .frameKind),
    (8, 0x3, 0x0, .frameKind) ]

/-- The stage a table word is read by: the first row of its width it matches, or, for a width no row has, the first row
with a set bit it matches; a row of no bits is the host statement `FRAME`. -/
def tableStage (nbits w : Nat) : Stage :=
  if nbits = 0 then .frameStep
  else
    match tableRows.find? fun r => r.1 == nbits && (w &&& r.2.1) == r.2.2.1 with
    | some r => r.2.2.2
    | none =>
      match tableRows.find? fun r => r.2.2.1 != 0 && (w &&& r.2.1) == r.2.2.1 with
      | some r => r.2.2.2
      | none => .frameKind

/-- The request of a word of the opcode table: its bits below `nbits` are the STATUS word, and every operand is 0. -/
def tableRequest (nbits w : Nat) : Request :=
  let bits := w % 2 ^ nbits
  [BitVec.ofNat 32 bits, BitVec.ofNat 32 (stageCode (tableStage nbits bits)), 0, 0]

/-- The instruction the decoder reads from a word of the opcode table. -/
def decodeTableWord (nbits w : Nat) : Option Instr :=
  match decode (tableRequest nbits w) with
  | .ok i => some i
  | .error _ => none

end Sys2Proof
end

