-- ==== Sys2Proof/Machine/Program.lean ====
section
/-! DEFINITION. The host side: the stores of the host, host programs as lists of requests, and the sink's read. -/

namespace Sys2Proof.Machine

/-! ### Host stores (`30_encoding.md` R135) -/

/-- A store may land now: not between dispatch and join (`20_memory.md` R94, `70_reset_and_hazards.md` R437). -/
def storeAllowed (s : State) : Bool := s.fatal || !decide (s.scan.phase = .render)

/-- The memory after a host store, or nothing where the pixel lies outside the space (`20_memory.md` R80, R83). -/
def storedMemory (P : Params) (m : Memory) : HostStore → Option Memory
  | .mem16 i v =>
    if i < P.rdramSize / 2 then some (writeBytes m (2 * i) [v.extractLsb' 8 8, v.extractLsb' 0 8]) else none
  | .mem32 i v =>
    if i < P.rdramSize / 4 then
      some (writeBytes m (4 * i) [v.extractLsb' 24 8, v.extractLsb' 16 8, v.extractLsb' 8 8, v.extractLsb' 0 8])
    else none
  | .hid i h => if i < P.rdramSize / 2 then some (writeHidden m i h) else none

/-- The effect of a host store. Where it faults and where it is refused: DEDUCED, safe (`notes/assumptions/19.md`). -/
def execStore (st : HostStore) (s : State) : Host.Outcome State Fault Refusal :=
  if storeAllowed s then
    match storedMemory s.params s.memory st with
    | some m => .next (s.withMemory m)
    | none => .fault .hostStoreOutsideMemory
  else .refused .memoryWriteDuringRender

/-! ### Host programs (`30_encoding.md` R135, R136) -/

/-- `CFG <name>=<value>`. For a worker count of 2^32 or more see `operandWord` (`notes/assumptions/32.md`). -/
def requestCfg (setting : CfgSetting) : Request := encode (.cfg setting)

/-- `WREG <reg>, <v32>`. -/
def requestWreg (reg : RegName) (v : Word) : Request := encode (.wreg reg v)

/-- `MEM16 <i>, <v16>`. -/
def requestMem16 (i : Nat) (v : BitVec 16) : Request := encodeStore (.mem16 i v)

/-- `MEM32 <i>, <v32>`. -/
def requestMem32 (i : Nat) (v : Word) : Request := encodeStore (.mem32 i v)

/-- `HID <i>, <h>`. -/
def requestHid (i : Nat) (h : BitVec 2) : Request := encodeStore (.hid i h)

/-- `FRAME`. -/
def requestFrame : Request := encode .frameStep

/-- `FILL16 <i>, <n>, <v16>[, <h>]`. -/
def fill16 (i n : Nat) (v : BitVec 16) (h : Option (BitVec 2)) : List Request :=
  (List.range n).flatMap fun k =>
    match h with
    | none => [requestMem16 (i + k) v]
    | some x => [requestMem16 (i + k) v, requestHid (i + k) x]

/-- `FILL32 <i>, <n>, <v32>`. -/
def fill32 (i n : Nat) (v : Word) : List Request := (List.range n).map fun k => requestMem32 (i + k) v

/-- `SETREGS <v0>, ..., <v13>`, given the 14 values by register. -/
def setRegs (r : Regs) : List Request :=
  [.status, .origin, .width, .vIntr, .vCurrent, .burst, .vSync, .hSync, .leap, .hStart, .vStart, .vBurst, .xScale,
    .yScale].map fun n => requestWreg n (r.get n)

/-! ### The sink -/

/-- What the sink reads of `Out`, between the present of one frame step and the start of the next; a read before any
present, or once a later frame step has started, however it ended, is refused (`44_gamma_dither_output.md` R326,
`60_exceptions.md` R415, `70_reset_and_hazards.md` R438). Which operations start a frame step for the sink is
`notes/assumptions/27.md`. -/
def sinkRead (s : State) (row col : Nat) : Host.Outcome Word Fault Refusal :=
  if s.scan.phase = .idle ∧ s.handedOver = true then .next (readOut s.params s.out row col)
  else .refused .sinkReadDuringFrameStep

/-! ### Taking a request -/

/-- What a request does: a host store, or the operation it decodes to. -/
def runRequest (run : Instr → State → Host.Outcome State Fault Refusal) (r : Request) (s : State) :
    Host.Outcome State Fault Refusal :=
  match decodeStore r with
  | some st => execStore st s
  | none =>
    match decode r with
    | .ok i => run i s
    | .error why => .refused (.undecodable why)

/-- One step: the next request is taken and run; with none pending the block stays idle
(`70_reset_and_hazards.md` R432). -/
def takeRequest (run : Instr → State → Host.Outcome State Fault Refusal) (s : State) :
    Host.Outcome State Fault Refusal :=
  match s.requests with
  | [] => .next s
  | r :: rest => runRequest run r (s.withRequests rest)

end Sys2Proof.Machine
end

