-- ==== Sys2Proof/Machine/Step.lean ====
section
/-! DEFINITION. One step of the block: the next host request is taken and run. -/

namespace Sys2Proof.Machine

/-- One step. How a program comes to run: DESIGN CHOICE, safe (`notes/assumptions/13.md`). -/
def step (s : State) : Host.Outcome State Fault Refusal := takeRequest exec s

/-- The state whose next step runs the operation of a word of the opcode table: the word's request stands first among the
pending ones. -/
def State.withFetchWord (s : State) (nbits w : Nat) : State :=
  s.withRequests (tableRequest nbits w :: s.requests)

end Sys2Proof.Machine
end

