-- ==== Sys2Proof/Safety.lean ====
section
/-! DEFINITION. What counts as a well-formed state, a coherent cache and a safe step, in the terms the statements use. -/

namespace Sys2Proof.Machine

/-! ### Plain data in its one form -/

/-- The workers are listed in the canonical form. -/
def workersWf (P : Params) (ws : List (Nat × Worker)) : Bool := sparseWf (freshWorker P) ws

/-- Every sparse map of the state is in its canonical form and inside its space: memory (`20_memory.md` R80), the output
buffer (`10_state.md` R37), the fade table (`10_state.md` R36), the workers. -/
def State.wf (s : State) : Bool :=
  Memory.wf s.params.rdramSize s.memory && outWf s.params s.out && fadeWf s.params s.pipe.fade &&
    workersWf s.params s.workers

/-! ### The scanline caches -/

/-- Every entry held under a marker is the value computed afresh (`45_scanline_sequencer_cache.md` R353). -/
def cacheHolds (compute : Int → Int → FetchState → Sample) (c : LineCache) : Bool :=
  match c.marker with
  | some k => c.entries.all fun e => decide (e.2 = compute k.row e.1 k.fs)
  | none => true

/-- A valid cache holds exactly the entries of columns `lo` to `hwm`, at most `depth` of them
(`45_scanline_sequencer_cache.md` R351). -/
def cacheShaped (depth : Nat) (c : LineCache) : Prop :=
  match c.marker with
  | some k =>
    k.lo ≤ k.hwm ∧ k.hwm - k.lo < depth ∧
      c.entries.map (fun e => e.1) = (List.range (k.hwm - k.lo + 1).toNat).map fun j => k.lo + (j : Int)
  | none => True

/-- The four caches of a worker hold only values computed afresh. -/
def workerHolds (P : Params) (m : Memory) (C : FrameConfig) (k : WorkerCaches) : Bool :=
  cacheHolds (resolvedSample P m C) k.cur && cacheHolds (resolvedSample P m C) k.next &&
    cacheHolds (divotSample P m C) k.dcur && cacheHolds (divotSample P m C) k.dnext

/-- Between dispatch and join no cache holds a stale value, when `CACHE_PROMOTE_STALE` is false and the block is not
stuck. -/
def State.cachesCoherent (s : State) : Bool :=
  !decide (s.scan.phase = .render) || s.fatal || s.params.cachePromoteStale ||
    s.workers.all fun e => workerHolds s.params s.memory s.frame e.2.caches

/-! ### Positions and fields -/

/-- Between steps the phase is never `BEGIN`, the pixel number of a render in progress is at most the line's pixel count
(`10_state.md` R32), and `Out` is handed over to the sink only in the phase `IDLE` of a block that is not stuck
(`44_gamma_dither_output.md` R326, `60_exceptions.md` R402). -/
def State.phaseLegal (s : State) : Bool :=
  !decide (s.scan.phase = .begin) && (!decide (s.scan.phase = .render) || decide (s.scan.i ≤ lineLength s)) &&
    (!s.handedOver || (decide (s.scan.phase = .idle) && !s.fatal))

/-- The ranges of the fields of `C` that every operation keeps (`10_state.md` R34): all but that of `C.vactive`. -/
def frameLegal (P : Params) (C : FrameConfig) : Bool :=
  decide (C.origin < 2 ^ 24) && decide (C.base16 = C.origin / 2) && decide (C.base32 = C.origin / 4) &&
    decide (C.w < 4096) && decide (C.vSync < 1024) && decide (C.hsRaw ≤ P.hFieldMask.toNat) &&
    decide (C.heRaw ≤ P.hFieldMask.toNat) && decide (C.vsRaw ≤ P.vFieldMask.toNat) &&
    decide (C.veRaw ≤ P.vFieldMask.toNat) && decide (C.xAdd < 4096) && decide (C.yAdd < 4096) &&
    decide (0 ≤ C.hStart) && decide (0 ≤ C.vStart) && decide (0 ≤ C.xStart) && decide (0 ≤ C.yStart)

/-- The ranges of `C`, and of the remembered vertical start of `S` (`10_state.md` R36). -/
def State.rangesLegal (s : State) : Bool :=
  frameLegal s.params s.frame && decide (s.pipe.oldVstart ≤ s.params.vFieldMask.toNat)

/-- `C.vactive` is in its range (`10_state.md` R34). It stands apart from `State.rangesLegal`, since a scan operation asked
for alone can leave it out of range (`notes/assumptions/28.md`). -/
def State.activeLegal (s : State) : Bool :=
  decide (0 ≤ s.frame.vactive) && decide (s.frame.vactive ≤ s.params.maxH)

/-! ### What a render must leave in the buffer -/

/-- The output row of scanline `y` (`41_frame_geometry_resolver.md` R201, `46_fast_display_modes.md` R390). -/
def targetRow (s : State) (y : Nat) : Int :=
  match s.sampled.displayMode with
  | .normal => outRow s.frame y
  | .rawColor | .depth | .coverage => y

/-- The output column of pixel `i` (`44_gamma_dither_output.md` R323, `46_fast_display_modes.md` R390). -/
def targetColumn (s : State) (i : Nat) : Int :=
  match s.sampled.displayMode with
  | .normal => s.frame.hStart + i
  | .rawColor | .depth | .coverage => i

/-- The value of pixel `i` of scanline `y` under `DITHER_SOURCE = DRAW`, with no cache and no worker: the function of
`44_gamma_dither_output.md` R324, or that of `46_fast_display_modes.md` R389. -/
def directPixel (s : State) (y i : Nat) : Word :=
  match s.sampled.displayMode with
  | .normal =>
    if clippedAt s.frame i then 0
    else
      pack (gammaDither s.frame.gdMode (Config.dither1 s.draws y i) (Config.dither6 s.draws y i)
        (scaledColour s.params s.memory s.frame y i))
  | .rawColor | .depth | .coverage =>
    pack (gammaDither s.frame.gdMode (Config.dither1 s.draws y i) (Config.dither6 s.draws y i)
      (fastColour s.params s.memory s.sampled s.frame y i))

/-! ### Safe steps -/

/-- An outcome is a next state. -/
def completes {σ φ ρ : Type} : Host.Outcome σ φ ρ → Bool
  | .next _ => true
  | .fault _ => false
  | .refused _ => false

/-- The next step neither faults nor is refused. -/
def State.stepsSafely (s : State) : Bool := completes (step s)

end Sys2Proof.Machine
end

