-- ==== Sys2Proof/Certificates/Slice0/Obligations.lean ====
section
/-! DEFINITION. The statements for the provers, in the order of OBLIGATIONS.json. -/

open Sys2Proof Sys2Proof.Machine

/-! ### Encoding and the step -/

/-- Decoding the encoding of a well-formed operation gives it back. The request layout is the model's
(`notes/assumptions/7.md`).

Rests on R131 and R135; decisions of the specification: D45; the model's choices: log 7 and 32. -/
def Obligations.DecodeOfEncodeIsIdentity : Prop :=
  ∀ i : Instr, i.wellFormed = true → decode (encode i) = .ok i

/-- Whatever the decoder reads is well-formed.

Rests on R131, R135 and R205; decisions of the specification: D45; its own inferences in: R205; the model's choices:
log 7. -/
def Obligations.DecodedOperationIsWellFormed : Prop :=
  ∀ (r : Request) (i : Instr), decode r = .ok i → i.wellFormed = true

/-- A few words written from the specification's encodings decode to their operations: single fields, then the word
`0x00000303` of `40_register_snapshot_decoder.md` R174 in one stage after another.

Rests on R111, R112, R131 and R174; decisions of the specification: D2 and D44; its own inferences in: R174; the
model's choices: log 7 and 8. -/
def Obligations.WordsOfTheSpecDecode : Prop :=
  decodeTableWord 8 0x2 = some (.fetch5551 0) ∧ decodeTableWord 8 0xC = some .gdGammaDither ∧
    decodeTableWord 8 0x10 = some (.divotOn .c00) ∧ decodeTableWord 8 0x40 = some .scanInterlaced ∧
    decodeTableWord 16 0x200 = some .aaMode10 ∧ decodeTableWord 16 0x3 = some (.blend32 .left .current) ∧
    decodeTableWord 24 0x10002 = some (.restore16 .left .current) ∧
    decode [0x303, 0, 5, 0] = .ok (.fetch8888 5) ∧ decode [0x303, 1, 0, 0] = .ok .aaMode11 ∧
    decode [0x303, 2, 1, 0] = .ok (.resolvePass .centre) ∧ decode [0x303, 3, 1, 0] = .error .noOperation ∧
    decode [0x303, 5, 0, 0] = .ok .gdNone ∧ decode [0x303, 8, 0, 0] = .error .noOperation

/-- A step takes the next request and runs it: the decoded operation by `exec`, a host store by `execStore`; with nothing
pending the block stays as it is.

Rests on R135 and R432; decisions of the specification: D45; the model's choices: log 7 and 13. -/
def Obligations.StepRunsTheDecodedOperation : Prop :=
  ∀ (s : State) (r : Request) (rest : List Request),
    (s.requests = [] → step s = .next s) ∧
    (s.requests = r :: rest →
      (∀ i, decodeStore r = none → decode r = .ok i → step s = exec i (s.withRequests rest)) ∧
      (∀ st, decodeStore r = some st → step s = execStore st (s.withRequests rest)) ∧
      (∀ why, decodeStore r = none → decode r = .error why → step s = .refused (.undecodable why)))

/-- The ignored bits of STATUS change nothing a frame step leaves but the slot and the snapshot they stand in. The mask
`0x1035F` holds the bits that are read.

Rests on R118; decisions of the specification: D2. -/
def Obligations.IgnoredStatusBitsChangeNothing : Prop :=
  ∀ (s : State) (v w : Word), v &&& 0x1035F = w &&& 0x1035F → s.fatal = false → s.scan.phase = .idle →
    ∃ t, exec .frameStep (s.withSlots (s.slots.set .status v)) = .next t ∧
      exec .frameStep (s.withSlots (s.slots.set .status w)) =
        .next ((t.withSlots (t.slots.set .status w)).withReg (t.reg.set .status w))

/-! ### Memory -/

/-- The four indexed reads: big-endian inside memory, 0 at every other integer index.

Rests on R84, R85, R86 and R87; decisions of the specification: D46. -/
def Obligations.PixelReadsByIndex : Prop :=
  ∀ (P : Params) (m : Memory) (i : Int),
    (read16 P m i).toNat =
        (if 0 ≤ i ∧ i < ((P.rdramSize / 2 : Nat) : Int) then
          (readByte m (2 * i.toNat)).toNat * 2 ^ 8 + (readByte m (2 * i.toNat + 1)).toNat
        else 0) ∧
      (read32 P m i).toNat =
        (if 0 ≤ i ∧ i < ((P.rdramSize / 4 : Nat) : Int) then
          (readByte m (4 * i.toNat)).toNat * 2 ^ 24 + (readByte m (4 * i.toNat + 1)).toNat * 2 ^ 16 +
            (readByte m (4 * i.toNat + 2)).toNat * 2 ^ 8 + (readByte m (4 * i.toNat + 3)).toNat
        else 0) ∧
      readHidden P m i =
        (if 0 ≤ i ∧ i < ((P.rdramSize / 2 : Nat) : Int) then readHiddenCell m i.toNat else 0) ∧
      pairRead16 P m i = (read16 P m i, readHidden P m i)

/-- A 32-bit pixel is its two 16-bit halves, and reads no hidden value.

Rests on R85 and R91; its own inferences in: R91. -/
def Obligations.PixelViewsOverlap : Prop :=
  ∀ (P : Params) (m : Memory) (i : Int), 0 ≤ i → i < ((P.rdramSize / 4 : Nat) : Int) →
    (read32 P m i).toNat = (read16 P m (2 * i)).toNat * 2 ^ 16 + (read16 P m (2 * i + 1)).toNat ∧
      ∀ h, read32 P { m with hidden := h } i = read32 P m i

/-- A host store writes exactly the bytes, or the hidden value, of one pixel; outside memory it faults, and between
dispatch and join it is refused.

Rests on R80, R81, R82, R83, R94, R135 and R415; decisions of the specification: D40 and D45; the model's choices: log
19. -/
def Obligations.HostStoreWritesOnePixel : Prop :=
  ∀ s : State,
    (s.fatal = false → s.scan.phase = .render →
      ∀ st, execStore st s = .refused .memoryWriteDuringRender) ∧
    ((s.fatal = true ∨ s.scan.phase ≠ .render) →
      (∀ i v, ¬i < s.params.rdramSize / 2 → execStore (.mem16 i v) s = .fault .hostStoreOutsideMemory) ∧
      (∀ i v, ¬i < s.params.rdramSize / 4 → execStore (.mem32 i v) s = .fault .hostStoreOutsideMemory) ∧
      (∀ i h, ¬i < s.params.rdramSize / 2 → execStore (.hid i h) s = .fault .hostStoreOutsideMemory) ∧
      (s.wf = true →
        (∀ i v, i < s.params.rdramSize / 2 → ∃ m, execStore (.mem16 i v) s = .next (s.withMemory m) ∧
          read16 s.params m i = v ∧ (∀ j, readHiddenCell m j = readHiddenCell s.memory j) ∧
          ∀ a, a ≠ 2 * i → a ≠ 2 * i + 1 → readByte m a = readByte s.memory a) ∧
        (∀ i v, i < s.params.rdramSize / 4 → ∃ m, execStore (.mem32 i v) s = .next (s.withMemory m) ∧
          read32 s.params m i = v ∧ (∀ j, readHiddenCell m j = readHiddenCell s.memory j) ∧
          ∀ a, (a < 4 * i ∨ 4 * i + 4 ≤ a) → readByte m a = readByte s.memory a) ∧
        (∀ i h, i < s.params.rdramSize / 2 → ∃ m, execStore (.hid i h) s = .next (s.withMemory m) ∧
          readHidden s.params m i = h ∧ (∀ j, j ≠ i → readHiddenCell m j = readHiddenCell s.memory j) ∧
          ∀ a, readByte m a = readByte s.memory a)))

/-! ### Fetch and resolve -/

/-- The two fetches, bit for bit, at every integer index; nothing but the fetch latch changes.

Rests on R243, R244, R245 and R246; decisions of the specification: D18; the model's choices: log 6. -/
def Obligations.FetchLatchesTheSample : Prop :=
  ∀ (s : State) (idx : Int), s.fatal = false →
    let p := (read16 s.params s.memory idx).toNat
    let h := (readHidden s.params s.memory idx).toNat
    let q := (read32 s.params s.memory idx).toNat
    exec (.fetch5551 idx) s = .next (s.withLatch { s.latch with
      fetchedIdx := idx
      fetched :=
        { r := BitVec.ofNat 8 ((p >>> 8) &&& 0xF8)
          g := BitVec.ofNat 8 ((p >>> 3) &&& 0xF8)
          b := BitVec.ofNat 8 ((p <<< 2) &&& 0xF8)
          cvg := if s.frame.covExtract then BitVec.ofNat 3 (((p &&& 1) <<< 2) ||| h) else 7 } }) ∧
    exec (.fetch8888 idx) s = .next (s.withLatch { s.latch with
      fetchedIdx := idx
      fetched :=
        { r := BitVec.ofNat 8 ((q >>> 24) &&& 0xFF)
          g := BitVec.ofNat 8 ((q >>> 16) &&& 0xFF)
          b := BitVec.ofNat 8 ((q >>> 8) &&& 0xFF)
          cvg := if s.frame.covExtract then BitVec.ofNat 3 ((q >>> 5) &&& 7) else 7 } })

/-- The restore filter adds to each channel, without wrapping, the signs of its 8 neighbours' differences, and keeps the
coverage. The latch the result goes to is the model's (`notes/assumptions/6.md`).

Rests on R250, R251 and R252; decisions of the specification: D24; the model's choices: log 6. -/
def Obligations.RestoreAddsTheSigns : Prop :=
  ∀ (s : State) (slot : Slot) (line : Line), s.fatal = false →
    let w : Int := s.frame.w
    let idx := s.latch.fetchedIdx
    let fs := if line = .current then FetchState.fs0 else s.latch.fs
    let down := if fs = .fs1 then [idx - 1, idx, idx + 1] else [idx + w - 1, idx + w, idx + w + 1]
    let nbrs := [idx - w - 1, idx - w, idx - w + 1] ++ down ++ [idx - 1, idx + 1]
    ∃ out16 out32 : Sample,
      exec (.restore16 slot line) s = .next (s.withLatch (putSlot s.latch slot out16)) ∧
      exec (.restore32 slot line) s = .next (s.withLatch (putSlot s.latch slot out32)) ∧
      out16.cvg = s.latch.fetched.cvg ∧ out32.cvg = s.latch.fetched.cvg ∧
      ∀ ch : Channel,
        let c := (sampleChannel s.latch.fetched ch).toNat
        let low16 : Nat := (match ch with | .r => 11 | .g => 6 | .b => 1)
        let low32 : Nat := (match ch with | .r => 27 | .g => 19 | .b => 11)
        ((sampleChannel out16 ch).toNat : Int) = c +
            (nbrs.map fun n =>
              Int.sign ((((read16 s.params s.memory n).toNat >>> low16) % 32 : Nat) - ((c / 8 : Nat) : Int))).sum ∧
          ((sampleChannel out32 ch).toNat : Int) = c +
            (nbrs.map fun n =>
              Int.sign ((((read32 s.params s.memory n).toNat >>> low32) % 32 : Nat) - ((c / 8 : Nat) : Int))).sum

/-- The blend filter moves each channel between the extrema of the centre and its fully covered neighbours, without
wrapping, and keeps the coverage.

Rests on R258, R259, R260 and R264; decisions of the specification: D25; its own inferences in: R264; the model's
choices: log 6. -/
def Obligations.BlendMovesBetweenExtrema : Prop :=
  ∀ (s : State) (slot : Slot) (line : Line), s.fatal = false →
    let w : Int := s.frame.w
    let idx := s.latch.fetchedIdx
    let fs := if line = .current then FetchState.fs0 else s.latch.fs
    let down := if fs = .fs1 then [idx - 2, idx + 2] else [idx + w - 1, idx + w + 1]
    let positions := [idx - w - 1, idx - w + 1, idx - 2, idx + 2] ++ down
    let r16 := fun n : Int => (read16 s.params s.memory n).toNat
    let r32 := fun n : Int => (read32 s.params s.memory n).toNat
    let near16 := positions.filter fun n => decide (r16 n % 2 = 1 ∧ readHidden s.params s.memory n = 3)
    let near32 := positions.filter fun n => decide ((r32 n >>> 5) % 8 = 7)
    ∃ out16 out32 : Sample,
      exec (.blend16 slot line) s = .next (s.withLatch (putSlot s.latch slot out16)) ∧
      exec (.blend32 slot line) s = .next (s.withLatch (putSlot s.latch slot out32)) ∧
      out16.cvg = s.latch.fetched.cvg ∧ out32.cvg = s.latch.fetched.cvg ∧
      ∀ ch : Channel,
        let c := (sampleChannel s.latch.fetched ch).toNat
        let k : Int := 7 - s.latch.fetched.cvg.toNat
        let low16 : Nat := (match ch with | .r => 11 | .g => 6 | .b => 1)
        let low32 : Nat := (match ch with | .r => 24 | .g => 16 | .b => 8)
        let e16 := extrema s.params (c :: near16.map fun n => ((r16 n >>> low16) % 32) * 8)
        let e32 := extrema s.params (c :: near32.map fun n => (r32 n >>> low32) % 256)
        ((sampleChannel out16 ch).toNat : Int) = c + (((e16.1 : Int) + e16.2 - 2 * c) * k + 4) / 8 ∧
          e16.1 ≤ (sampleChannel out16 ch).toNat ∧ (sampleChannel out16 ch).toNat ≤ e16.2 ∧
          ((sampleChannel out32 ch).toNat : Int) = c + (((e32.1 : Int) + e32.2 - 2 * c) * k + 4) / 8 ∧
          e32.1 ≤ (sampleChannel out32 ch).toNat ∧ (sampleChannel out32 ch).toNat ≤ e32.2

/-- Under both readings the extrema are elements of the list on either side of its first. Under `MIN_MAX` they are the true
minimum and maximum; under `RUNNING_CANDIDATE` the maximum is that of the list without the first of its largest elements
after the centre, the minimum likewise, as the pass of R262 leaves them, and the vectors of F-13 follow.

Rests on R262, R263 and R264; decisions of the specification: D22; its own inferences in: R262 and R264. -/
def Obligations.ExtremaBracketTheCentre : Prop :=
  ∀ (P : Params) (c : Nat) (l : List Nat),
    let e := extrema P (c :: l)
    e.1 ∈ c :: l ∧ e.2 ∈ c :: l ∧ e.1 ≤ c ∧ c ≤ e.2 ∧
      ((∀ x ∈ l, x ≤ c) → e.2 = c) ∧ ((∀ x ∈ l, c ≤ x) → e.1 = c) ∧
      (P.blendExtrema = .minMax → e = (l.foldl min c, l.foldl max c) ∧ ∀ x ∈ c :: l, e.1 ≤ x ∧ x ≤ e.2) ∧
      (P.blendExtrema = .runningCandidate →
        e.1 = (l.erase (l.foldl min c)).foldl min c ∧ e.2 = (l.erase (l.foldl max c)).foldl max c ∧
          extrema P [5, 9, 3] = (5, 5) ∧ extrema P [9, 5, 3] = (5, 9) ∧ extrema P [3, 9, 5] = (3, 5) ∧
          extrema P [5, 7, 9] = (5, 7))

/-! ### Divot and scaler -/

/-- The divot filter gives the centre when all three samples are fully covered, else the median of each channel; the
coverage is the centre's.

Rests on R291, R292, R293, R294 and R304; decisions of the specification: D27; its own inferences in: R292, R293, R294
and R304; the model's choices: log 6. -/
def Obligations.DivotIsTheMedian : Prop :=
  ∀ (s : State) (corner : Corner), s.fatal = false →
    ∃ out : Sample, exec (.divotOn corner) s = .next (s.withLatch (putCorner s.latch corner out)) ∧
      out.cvg = s.latch.centre.cvg ∧
      (s.latch.centre.cvg = 7 ∧ s.latch.left.cvg = 7 ∧ s.latch.right.cvg = 7 → out = s.latch.centre) ∧
      (¬(s.latch.centre.cvg = 7 ∧ s.latch.left.cvg = 7 ∧ s.latch.right.cvg = 7) →
        ∀ ch : Channel,
          let c := (sampleChannel s.latch.centre ch).toNat
          let l := (sampleChannel s.latch.left ch).toNat
          let r := (sampleChannel s.latch.right ch).toNat
          (sampleChannel out ch).toNat = max (min l c) (min (max l c) r))

/-- The four operations that pass a value on unchanged, each with its whole frame.

Rests on R271, R299, R303, R306 and R328; decisions of the specification: D26; its own inferences in: R271, R299,
R303, R306 and R328; the model's choices: log 6. -/
def Obligations.PassingOperationsCopy : Prop :=
  ∀ s : State, s.fatal = false →
    (∀ slot, exec (.resolvePass slot) s = .next (s.withLatch (putSlot s.latch slot s.latch.fetched))) ∧
      (∀ corner, exec (.divotOff corner) s = .next (s.withLatch (putCorner s.latch corner s.latch.centre))) ∧
      exec .noLerp s = .next (s.withLatch { s.latch with
        colour := ⟨s.latch.c00.r, s.latch.c00.g, s.latch.c00.b⟩, colourCvg := s.latch.c00.cvg }) ∧
      exec .gdNone s = .next s

/-- One interpolation lies between its inputs, so the byte mask never acts, and a fraction of 0 gives the base.

Rests on R297 and R300; its own inferences in: R297 and R300. -/
def Obligations.LerpStaysBetweenItsInputs : Prop :=
  ∀ (base other : Byte) (f : Int), 0 ≤ f → f < 32 →
    ((lerp base other f).toNat : Int) =
        base.toNat + (((other.toNat : Int) - base.toNat) * f + 16) / 32 ∧
      min base.toNat other.toNat ≤ (lerp base other f).toNat ∧
      (lerp base other f).toNat ≤ max base.toNat other.toNat ∧ lerp base other 0 = base

/-- `LERP` interpolates the four corners by the fractions of the pixel in progress, in the order `LERP_ORDER` names.

Rests on R204, R298, R299 and R305; decisions of the specification: D26 and D27; its own inferences in: R204, R299 and
R305; the model's choices: log 6. -/
def Obligations.LerpOperationBlendsTheCorners : Prop :=
  ∀ s : State, s.fatal = false →
    let xf : Int := ((s.frame.xStart + s.scan.i * s.frame.xAdd) / 32) % 32
    let yf : Int := ((s.frame.yStart + s.scan.y * s.frame.yAdd) / 32) % 32
    let value := fun ch : Channel =>
      let c00 := sampleChannel s.latch.c00 ch
      let c01 := sampleChannel s.latch.c01 ch
      let c10 := sampleChannel s.latch.c10 ch
      let c11 := sampleChannel s.latch.c11 ch
      if s.params.lerpOrder = .hFirst then lerp (lerp c00 c01 xf) (lerp c10 c11 xf) yf
      else lerp (lerp c00 c10 yf) (lerp c01 c11 yf) xf
    exec .lerp s = .next (s.withLatch { s.latch with colour := ⟨value .r, value .g, value .b⟩, colourCvg := s.latch.c00.cvg })

/-! ### Gamma, dither, clip, write -/

/-- `isqrt` is the floor of the square root, and both gamma tables are twice a root and never decrease.

Rests on R311, R312 and R313; decisions of the specification: D28; its own inferences in: R313. -/
def Obligations.GammaTablesAreTwiceARoot : Prop :=
  (∀ n, isqrt n * isqrt n ≤ n ∧ n < (isqrt n + 1) * (isqrt n + 1)) ∧
    (∀ v : Byte, (gammaTable v).toNat = 2 * isqrt (v.toNat * 64)) ∧
    (∀ i : BitVec 14, (gammaDitherTable i).toNat = 2 * isqrt i.toNat) ∧
    gammaTable 0 = 0 ∧ gammaTable 255 = 254 ∧ gammaDitherTable 0 = 0 ∧ gammaDitherTable 16383 = 254 ∧
    (∀ v : Byte, gammaDitherTable (v ++ (0 : BitVec 6)) = gammaTable v) ∧
    (∀ v w : Byte, v ≤ w → gammaTable v ≤ gammaTable w) ∧
    ∀ i j : BitVec 14, i ≤ j → gammaDitherTable i ≤ gammaDitherTable j

/-- Gamma and dither on the colour of the pixel in progress, for every dither sequence; a clipped pixel takes no dither,
and no worker's seed or caches change.

Rests on R315, R316, R318, R319, R321, R329, R330 and R331; decisions of the specification: D28 and D29; its own
inferences in: R329, R330 and R331; the model's choices: log 5 and 6 and 24. -/
def Obligations.GammaAndDitherUnderDraw : Prop :=
  ∀ s : State, s.fatal = false →
    let d1 := Config.dither1 s.draws s.scan.y s.scan.i
    let d6 := Config.dither6 s.draws s.scan.y s.scan.i
    let dithered := fun (c : Byte) (ch : Channel) => if c.toNat < 255 then BitVec.ofNat 8 (c.toNat + (d1 ch).toNat) else c
    let looked := fun (c : Byte) (ch : Channel) => gammaDitherTable (BitVec.ofNat 14 (c.toNat * 64 + (d6 ch).toNat))
    let k := s.latch.colour
    exec .gdGamma s = .next (s.withLatch { s.latch with
        colour := ⟨gammaTable k.r, gammaTable k.g, gammaTable k.b⟩ }) ∧
      (s.latch.clipped = true → exec .gdDither s = .next s ∧ exec .gdGammaDither s = .next s) ∧
      (s.latch.clipped = false → s.params.ditherSource = .draw → s.wf = true →
        ∃ ws, (∀ j, getWorker s.params ws j = getWorker s.params s.workers j) ∧
          exec .gdDither s = .next ((s.withLatch { s.latch with
            colour := ⟨dithered k.r .r, dithered k.g .g, dithered k.b .b⟩ }).withWorkers ws) ∧
          exec .gdGammaDither s = .next ((s.withLatch { s.latch with
            colour := ⟨looked k.r .r, looked k.g .g, looked k.b .b⟩ }).withWorkers ws))

/-- Under `DITHER_SOURCE = LCG` each dithering operation advances the seed of the worker that owns the scanline once, and
takes its dither bits from the new seed.

Rests on R315, R317, R319, R329, R331, R344 and R345; decisions of the specification: D28, D30 and D41; its own
inferences in: R317, R329 and R331; the model's choices: log 6 and 24 and 30. -/
def Obligations.DitherUnderLcgAdvancesTheSeed : Prop :=
  ∀ s : State, s.fatal = false → s.latch.clipped = false → s.params.ditherSource = .lcg → s.wf = true →
    let owner := s.scan.y % (if s.sampled.numWorkers = 0 then max 1 s.params.hwThreads else s.sampled.numWorkers)
    let old := getWorker s.params s.workers owner
    let seed : Word := BitVec.ofNat 32 (old.seed.toNat * 0x343FD + 0x269EC3)
    let rnd := (seed.toNat >>> 16) % 2 ^ 15
    let dithered := fun (c : Byte) (d : Nat) => if c.toNat < 255 then BitVec.ofNat 8 (c.toNat + d) else c
    let looked := fun (c : Byte) (d : Nat) => gammaDitherTable (BitVec.ofNat 14 (c.toNat * 64 + d))
    let k := s.latch.colour
    ∃ ws, (∀ j, getWorker s.params ws j = if j = owner then ⟨seed, old.caches⟩ else getWorker s.params s.workers j) ∧
      exec .gdDither s = .next ((s.withLatch { s.latch with
        colour := ⟨dithered k.r (rnd % 2), dithered k.g ((rnd >>> 1) % 2), dithered k.b ((rnd >>> 2) % 2)⟩
        }).withWorkers ws) ∧
      exec .gdGammaDither s = .next ((s.withLatch { s.latch with
        colour := ⟨looked k.r (rnd % 64), looked k.g ((rnd >>> 6) % 64),
          looked k.b (((rnd >>> 9) &&& 0x38) ||| (rnd &&& 7))⟩ }).withWorkers ws)

/-- `HBLANK_CLIP` makes pixel `i` the pixel in progress, when the line has one, and marks it black exactly outside the
margins. That it moves the scan position, and only inside the line, is the model's choice (`notes/assumptions/6.md`,
`18.md`).

Rests on R32, R321 and R332; decisions of the specification: D39; its own inferences in: R332; the model's choices:
log 6 and 18 and 30. -/
def Obligations.ClipMarksThePixel : Prop :=
  ∀ (s : State) (i : Nat), s.fatal = false →
    let pixels : Int := if s.sampled.displayMode = .normal then s.frame.hres else s.frame.hresRaw
    exec (.hblankClip i) s =
      .next ((s.withScan (if (i : Int) < pixels then { s.scan with i := i } else s.scan)).withLatch { s.latch with
        clipped := decide ((i : Int) < s.frame.marginLo ∨ s.frame.marginHi ≤ (i : Int)) })

/-- `PIXEL_WRITE` stores the packed pixel at its output row and column, and nowhere else; once the scanline or the frame has
ended it does nothing, which is the model's choice (`notes/assumptions/18.md`).

Rests on R32, R201, R322, R323 and R333; decisions of the specification: D13; its own inferences in: R323 and R333;
the model's choices: log 6 and 17 and 18. -/
def Obligations.PixelWriteStoresOneWord : Prop :=
  ∀ s : State, s.fatal = false → s.scan.phase = .render → s.wf = true →
    let lines : Int := if s.sampled.displayMode = .normal then s.frame.vres else s.frame.vresRaw
    let pixels : Int := if s.sampled.displayMode = .normal then s.frame.hres else s.frame.hresRaw
    let row : Int := (s.frame.vStart + s.scan.y) * (if s.frame.serrate then 2 else 1) + (if s.frame.field then 1 else 0)
    let col : Int := s.frame.hStart + s.scan.i
    let k := s.latch.colour
    ((s.scan.y : Int) < lines ∧ (s.scan.i : Int) < pixels →
      ∃ o, exec .pixelWrite s = .next ((s.withOut o).withScan { s.scan with i := s.scan.i + 1 }) ∧
        (0 ≤ row ∧ row < s.params.maxH ∧ 0 ≤ col ∧ col < s.params.maxW →
          (readOut s.params o row col).toNat =
            if s.latch.clipped then 0 else k.r.toNat * 2 ^ 16 + k.g.toNat * 2 ^ 8 + k.b.toNat) ∧
        ∀ r c : Int, (r ≠ row ∨ c ≠ col) → readOut s.params o r c = readOut s.params s.out r c) ∧
    (¬((s.scan.y : Int) < lines ∧ (s.scan.i : Int) < pixels) → exec .pixelWrite s = .next s)

/-- `FETCH_STATE` latches the fetch state of the scanline by its closed form, and a fetch state of 1 stands exactly after
one of 2 whose run has ended. That it moves the scan position, and only to a scanline of the frame, is the model's choice
(`notes/assumptions/6.md`, `18.md`).

Rests on R32, R266, R268 and R276; decisions of the specification: D23; its own inferences in: R266 and R276; the
model's choices: log 6 and 18 and 30. -/
def Obligations.FetchStateMarksAliasedRows : Prop :=
  ∀ (s : State) (y : Nat), s.fatal = false →
    let row := fun n : Int => (s.frame.yStart + n * s.frame.yAdd) / 1024
    let lines : Int := if s.sampled.displayMode = .normal then s.frame.vres else s.frame.vresRaw
    ∃ fs, exec (.fetchState y) s =
        .next ((s.withScan (if (y : Int) < lines then { s.scan with y := y, i := 0 } else s.scan)).withLatch
          { s.latch with fs := fs }) ∧
      (s.params.fetchBugEnable = false → fs = .fs0) ∧
      (s.params.fetchBugEnable = true →
        fs = (if row (y + 1) = row y then .fs2
          else if 1 ≤ y ∧ row ((y : Int) - 1) = row y then .fs1 else .fs0) ∧
        (fs = .fs1 ↔ 1 ≤ y ∧ row (y + 1) ≠ row y ∧ fetchStateOf s.params s.frame ((y : Int) - 1) = .fs2))

/-! ### Host writes -/

/-- A register write sets its slot and no other, and a configuration write its input and no other; neither changes
anything else, in any phase, fatal or not.

Rests on R174 and R444; decisions of the specification: D49; its own inferences in: R174 and R444; the model's
choices: log 20. -/
def Obligations.HostWritesSetOneInput : Prop :=
  ∀ s : State,
    (∀ n v, ∃ r : Regs, exec (.wreg n v) s = .next (s.withSlots r) ∧ r.get n = v ∧
      ∀ k, k ≠ n → r.get k = s.slots.get k) ∧
    (∀ m, exec (.cfg (.displayMode m)) s = .next (s.withConfig { s.config with displayMode := m })) ∧
    (∀ b, exec (.cfg (.tvFade b)) s = .next (s.withConfig { s.config with tvFade := b })) ∧
    (∀ n, exec (.cfg (.numWorkers n)) s = .next (s.withConfig { s.config with numWorkers := n })) ∧
    (∀ b, exec (.cfg (.widescreen b)) s = .next (s.withConfig { s.config with widescreen := b })) ∧
    (∀ b, exec (.cfg (.traceRecord b)) s = .next (s.withConfig { s.config with traceRecord := b })) ∧
    (∀ a, exec (.cfg (.zbAddress a)) s = .next (s.withConfig { s.config with zbAddress := a }))

/-! ### The parts of begin_frame as operations -/

/-- The anti-alias modes, the reserved format and the normal display mode, each with its whole frame. That they run on
their own in the phases `IDLE` and `BEGIN` is the model's choice (`notes/assumptions/6.md`).

Rests on R175, R176, R177, R178, R179, R181, R182 and R223; decisions of the specification: D17, D19, D20 and D44; its
own inferences in: R175, R176, R177, R178, R179 and R223; the model's choices: log 6 and 12 and 27. -/
def Obligations.ModeOperationsSetTheirFields : Prop :=
  ∀ s : State, s.fatal = false → s.scan.phase ≠ .render → s.scan.phase ≠ .present →
    exec .aaMode00 s = .next (s.withFrame { s.frame with aaMode := .mode00, covExtract := true, bilinearEn := true }) ∧
    exec .aaMode01 s = .next (s.withFrame { s.frame with aaMode := .mode01, covExtract := true, bilinearEn := true }) ∧
    exec .aaMode10 s = .next (s.withFrame { s.frame with aaMode := .mode10, covExtract := false, bilinearEn := true }) ∧
    exec .aaMode11 s = .next (s.withFrame { s.frame with aaMode := .mode11, covExtract := false, bilinearEn := false }) ∧
    (∃ t, exec .fmtReserved s = .next t ∧ t.log = s.log ++ [.w1] ∧
      t = { s with frame := { s.frame with fmt := .reserved, isBlank := true, is32 := false }, log := t.log }) ∧
    exec .modeNormal s = .next
      (let s1 := (s.withHandedOver false).withSampled { s.sampled with displayMode := .normal }
       if s.pipe.modeLatched = .normal then s1
       else (s1.withOut []).withPipe { s.pipe with fade := [], modeLatched := .normal })

/-- The scan operations: the fields of `C` and `S` each sets, the warnings of the interlaced one, and nothing else.

Rests on R188, R189, R190, R191, R192, R199, R201, R202, R221 and R222; decisions of the specification: D6, D11 and
D13; its own inferences in: R199, R202, R221 and R222; the model's choices: log 6 and 12 and 28 and 34. -/
def Obligations.ScanOperationsSequenceTheField : Prop :=
  ∀ s : State, s.fatal = false → s.scan.phase ≠ .render → s.scan.phase ≠ .present →
    let vact : Int := s.frame.vSync - (if s.frame.isPal then (s.params.vOffsetPal : Int) else s.params.vOffsetNtsc)
    exec .scanProgressive s = .next ((s.withFrame { s.frame with
        serrate := false, validInterlace := false, field := false, vactive := vact / 2 }).withPipe
      { s.pipe with prevSerrate := false }) ∧
    ∃ t, exec .scanInterlaced s = .next t ∧
      t.frame = { s.frame with
        serrate := true, validInterlace := s.reg.status.getLsbD 1, field := t.pipe.lowerField, vactive := vact } ∧
      (s.reg.status.getLsbD 1 = false → t.pipe = { s.pipe with prevSerrate := false }) ∧
      (s.reg.status.getLsbD 1 = true →
        t.pipe = { s.pipe with
          prevSerrate := true, prevVcurParity := s.frame.vcurParity, oldVstart := s.frame.vsRaw
          emuParity := t.pipe.emuParity
          lowerField :=
            (if t.pipe.emuParity = .yes then !s.frame.vcurParity
            else if t.pipe.emuParity = .no then
              (if s.frame.vsRaw = s.pipe.oldVstart then !s.pipe.lowerField
              else decide (s.frame.vsRaw < s.pipe.oldVstart))
            else s.pipe.lowerField) } ∧
        t.pipe.emuParity =
          (if s.pipe.prevSerrate = true ∧ s.pipe.emuParity = .undetermined then
            (if s.frame.vcurParity = s.pipe.prevVcurParity then .no else .yes)
          else s.pipe.emuParity)) ∧
      t.log = s.log ++ List.replicate
        (if s.frame.isBlank = false ∧ s.frame.validh = true then
          ((List.range s.frame.vres.toNat).filter fun y =>
            decide ((s.params.maxH : Int) ≤ (s.frame.vStart + y) * 2 + (if t.pipe.lowerField then 1 else 0))).length
        else 0) .w4 ∧
      t = { s with frame := t.frame, pipe := t.pipe, log := t.log }

/-- `FMT_BLANK`: Skip S2, a hard clear, or one decay of every row.

Rests on R207, R208, R214 and R220; decisions of the specification: D15 and D16; its own inferences in: R214 and R220;
the model's choices: log 6 and 18 and 21 and 27 and 30. -/
def Obligations.BlankFormatSkipsClearsOrDecays : Prop :=
  ∀ s : State, s.fatal = false → s.scan.phase ≠ .render → s.scan.phase ≠ .present → s.wf = true →
    (s.sampled.tvFade = false → s.pipe.prevWasBlank = true →
      exec .fmtBlank s = .next (((s.withHandedOver false).withPhase .idle).withResult (.skip .s2))) ∧
    ((s.sampled.tvFade = true ∨ s.pipe.prevWasBlank = false) →
      ∃ o f, exec .fmtBlank s =
          .next (((s.withHandedOver false).withOut o).withPipe { s.pipe with fade := f, prevWasBlank := true }) ∧
        (s.sampled.tvFade = false →
          (∀ row col : Int, readOut s.params o row col = 0) ∧ ∀ row, readFade f row = 0) ∧
        (s.sampled.tvFade = true → ∀ row : Nat, row < s.params.maxH →
          readFade f row = readFade s.pipe.fade row - 1 ∧
          ∀ col : Nat, col < s.params.maxW → readOut s.params o row col =
            if readFade s.pipe.fade row = 1 then 0 else readOut s.params s.out row col))

/-! ### begin_frame -/

/-- `begin_frame` captures all 14 slots, samples the configuration, and decodes the fields that depend on the registers
alone.

Rests on R154, R156, R157, R158, R164, R166, R167, R168 and R169; decisions of the specification: D3. -/
def Obligations.BeginFrameDecodesTheSnapshot : Prop :=
  ∀ s : State, s.fatal = false → s.scan.phase = .idle →
    ∃ t, exec .beginFrame s = .next t ∧ t.reg = s.slots ∧ t.sampled = s.config ∧
      let status := s.slots.status.toNat
      let C := t.frame
      C.fmt = ([PixelFormat.blank, .reserved, .rgba5551, .rgba8888].getD (status % 4) .blank) ∧
      C.isBlank = decide (status / 2 % 2 = 0) ∧ C.is32 = decide (status % 4 = 3) ∧
      C.gdMode = ([GdMode.none, .dither, .gamma, .gammaDither].getD
        (2 * (status / 8 % 2) + status / 4 % 2) .none) ∧
      C.divotEn = decide (status / 16 % 2 = 1) ∧ C.serrate = decide (status / 64 % 2 = 1) ∧
      C.aaMode = ([AaMode.mode00, .mode01, .mode10, .mode11].getD (status / 256 % 4) .mode00) ∧
      C.covExtract = decide (status / 512 % 2 = 0) ∧ C.bilinearEn = decide (C.aaMode ≠ .mode11) ∧
      C.restoreEn = decide (status / 65536 % 2 = 1) ∧
      C.origin = s.slots.origin.toNat % 2 ^ 24 ∧ C.base16 = C.origin / 2 ∧ C.base32 = C.origin / 4 ∧
      C.w = s.slots.width.toNat % 4096 ∧ C.vcurParity = decide (s.slots.vCurrent.toNat % 2 = 1) ∧
      C.vSync = s.slots.vSync.toNat % 1024 ∧
      C.hsRaw = (s.slots.hStart.toNat / 65536) &&& s.params.hFieldMask.toNat ∧
      C.heRaw = s.slots.hStart.toNat &&& s.params.hFieldMask.toNat ∧
      C.vsRaw = (s.slots.vStart.toNat / 65536) &&& s.params.vFieldMask.toNat ∧
      C.veRaw = s.slots.vStart.toNat &&& s.params.vFieldMask.toNat ∧
      C.xAdd = s.slots.xScale.toNat % 4096 ∧ C.yAdd = s.slots.yScale.toNat % 4096

/-- The geometry of a normal frame: the standard, the starts with their carries, and the clamped sizes, whichever way
`begin_frame` then ends.

Rests on R183, R187, R193 and R194; decisions of the specification: D7, D8 and D9. -/
def Obligations.BeginFrameResolvesTheGeometry : Prop :=
  ∀ s : State, s.fatal = false → s.scan.phase = .idle → s.config.displayMode = .normal →
    ∃ t, exec .beginFrame s = .next t ∧
      let P := s.params
      let C := decodeRegs P s.slots
      let pal := decide (P.palThreshold < C.vSync)
      let hoff : Int := if pal then P.hOffsetPal else P.hOffsetNtsc
      let voff : Int := if pal then P.vOffsetPal else P.vOffsetNtsc
      let h0 : Int := C.hsRaw - hoff
      let v0 : Int := Int.tdiv (C.vsRaw - voff) 2
      let width : Int := C.heRaw - C.hsRaw + min h0 0
      let height : Int := ((C.veRaw : Int) - C.vsRaw) / 2
      t.frame.isPal = pal ∧ t.frame.hStart = max h0 0 ∧ t.frame.hStartClamped = decide (h0 < 0) ∧
        t.frame.xStart = (s.slots.xScale.toNat / 65536 % 4096 : Nat) + C.xAdd * max (-h0) 0 ∧
        t.frame.vStart = max v0 0 ∧
        t.frame.yStart = (s.slots.yScale.toNat / 65536 % 4096 : Nat) + C.yAdd * max (-v0) 0 ∧
        t.frame.hres = min width (P.maxW - max h0 0) ∧
        t.frame.hresClamped = decide (P.maxW < max h0 0 + width) ∧
        t.frame.vres = min height (P.maxH - max v0 0)

/-- The interlace sequencer of a normal frame: the parity control, the field and the remembered values, whichever way
`begin_frame` then ends.

Rests on R188, R190, R191 and R192; decisions of the specification: D6. -/
def Obligations.BeginFrameSequencesTheFields : Prop :=
  ∀ s : State, s.fatal = false → s.scan.phase = .idle → s.config.displayMode = .normal →
    ∃ t, exec .beginFrame s = .next t ∧
      let C := decodeRegs s.params s.slots
      let valid := s.slots.status.getLsbD 1 && s.slots.status.getLsbD 6
      t.frame.validInterlace = valid ∧
        t.pipe.emuParity =
          (if valid = true ∧ s.pipe.prevSerrate = true ∧ s.pipe.emuParity = .undetermined then
            (if C.vcurParity = s.pipe.prevVcurParity then .no else .yes)
          else s.pipe.emuParity) ∧
        t.pipe.lowerField =
          (if valid then
            (if t.pipe.emuParity = .yes then !C.vcurParity
            else if t.pipe.emuParity = .no then
              (if C.vsRaw = s.pipe.oldVstart then !s.pipe.lowerField else decide (C.vsRaw < s.pipe.oldVstart))
            else s.pipe.lowerField)
          else s.pipe.lowerField) ∧
        t.pipe.prevVcurParity = (if valid then C.vcurParity else s.pipe.prevVcurParity) ∧
        t.pipe.oldVstart = (if valid then C.vsRaw else s.pipe.oldVstart) ∧ t.pipe.prevSerrate = valid

/-- A normal `begin_frame` whose active-line count is in range and that no Skip ends goes on to the render, with the
active lines, the field and the margins the rules give.

Rests on R180, R181, R197, R199, R200, R201, R203, R207, R208, R209 and R216; decisions of the specification: D11,
D12, D13, D16, D17 and D39; its own inferences in: R199 and R216; the model's choices: log 11 and 18. -/
def Obligations.BeginFrameProducesAFrame : Prop :=
  ∀ s : State, s.fatal = false → s.scan.phase = .idle → s.config.displayMode = .normal →
    let C := resolveStandard s.params (decodeRegs s.params s.slots)
    let vact := activeCount s.params C
    0 ≤ vact → vact ≤ s.params.maxH →
    (C.isBlank = true → s.config.tvFade = false → s.pipe.prevWasBlank = false) →
    ∃ t, exec .beginFrame s = .next t ∧ t.fatal = false ∧ t.scan = ⟨.render, 0, 0⟩ ∧
      t.presented = s.presented ∧ t.memory = s.memory ∧
      t.frame.vactive = (if C.serrate then vact else vact / 2) ∧ 0 ≤ t.frame.vactive ∧ t.frame.vactive ≤ s.params.maxH ∧
      t.frame.validh = decide (0 < t.frame.hres ∧ 0 < t.frame.vres ∧ t.frame.hStart < s.params.maxW) ∧
      t.frame.field = (C.serrate && t.pipe.lowerField) ∧
      t.frame.marginLo = (if t.frame.hStartClamped then 0 else (s.params.hblankMarginL : Int)) ∧
      t.frame.marginHi = (if t.frame.hresClamped then t.frame.hres else t.frame.hres - s.params.hblankMarginR) ∧
      t.pipe.prevWasBlank = C.isBlank ∧ t.pipe.modeLatched = .normal

/-- What a normal `begin_frame` clears and what it does to the fade counters, row by row: of a non-blank frame, and of a blank
one that decays, clears or skips.

Rests on R181, R207, R208, R209, R210, R211, R212, R213, R214 and R215; decisions of the specification: D14, D15, D16
and D17; its own inferences in: R211 and R214. -/
def Obligations.BeginFrameClearsBordersAndFades : Prop :=
  ∀ s : State, s.fatal = false → s.scan.phase = .idle → s.config.displayMode = .normal → s.wf = true →
    let C := resolveStandard s.params (decodeRegs s.params s.slots)
    let vact := activeCount s.params C
    0 ≤ vact → vact ≤ s.params.maxH →
    ∃ t, exec .beginFrame s = .next t ∧
      ∀ row : Nat, row < s.params.maxH →
        let kept := s.pipe.modeLatched = .normal
        let fade := if kept then readFade s.pipe.fade row else 0
        let before := fun col : Nat => if kept then readOut s.params s.out row col else 0
        let written := ∃ y : Nat, t.frame.validh = true ∧ (y : Int) < t.frame.vres ∧ outRow t.frame y = row
        let region := t.frame.vStart * (if C.serrate then 2 else 1) ≤ (row : Int) ∧
          (row : Int) < (t.frame.vStart + t.frame.vres) * (if C.serrate then 2 else 1)
        (C.isBlank = false →
          (written → readFade t.pipe.fade row = s.params.fadeFrames) ∧
          (¬written → s.config.tvFade = true → readFade t.pipe.fade row = fade - 1) ∧
          (¬written → s.config.tvFade = false → region → readFade t.pipe.fade row = fade) ∧
          (¬written → s.config.tvFade = false → ¬region → readFade t.pipe.fade row = 0) ∧
          ∀ col : Nat, col < s.params.maxW →
            let border := (row : Int) < t.frame.vactive ∧
              ¬(t.frame.hStart ≤ (col : Int) ∧ (col : Int) < t.frame.hStart + max t.frame.hres 0)
            let rowGone := ¬written ∧
              ((s.config.tvFade = true ∧ fade = 1) ∨ (s.config.tvFade = false ∧ ¬region))
            ((border ∨ rowGone) → readOut s.params t.out row col = 0) ∧
            (¬border → ¬rowGone → readOut s.params t.out row col = before col)) ∧
        (C.isBlank = true → s.config.tvFade = true →
          readFade t.pipe.fade row = fade - 1 ∧
          ∀ col : Nat, col < s.params.maxW → readOut s.params t.out row col = if fade = 1 then 0 else before col) ∧
        (C.isBlank = true → s.config.tvFade = false → s.pipe.prevWasBlank = false →
          readFade t.pipe.fade row = 0 ∧ ∀ col : Nat, col < s.params.maxW → readOut s.params t.out row col = 0) ∧
        (C.isBlank = true → s.config.tvFade = false → s.pipe.prevWasBlank = true →
          readFade t.pipe.fade row = fade ∧
          ∀ col : Nat, col < s.params.maxW → readOut s.params t.out row col = before col)

/-- A fast `begin_frame` that no Skip ends: the size in framebuffer pixels clamped to the raster with its warnings, an
empty buffer, and nothing of `S` changed but by the display-mode latch.

Rests on R181, R380, R382, R383 and R384; decisions of the specification: D17 and D34; the model's choices: log 11 and
18. -/
def Obligations.FastBeginFrameClearsAndSizes : Prop :=
  ∀ s : State, s.fatal = false → s.scan.phase = .idle → s.config.displayMode ≠ .normal →
    let C := decodeRegs s.params s.slots
    let width : Int := Int.tdiv (C.xAdd * ((C.heRaw : Int) - C.hsRaw)) 1024
    let height : Int := Int.tdiv (C.yAdd * (((C.veRaw : Int) - C.vsRaw) / 2)) 1024
    0 < width → 0 < height → C.vcurParity = false → C.isBlank = false →
    ∃ t, exec .beginFrame s = .next t ∧ t.fatal = false ∧ t.scan = ⟨.render, 0, 0⟩ ∧ t.out = [] ∧
      t.frame.hresRaw = min width s.params.maxW ∧ t.frame.vresRaw = min height s.params.maxH ∧
      t.log = s.log ++ (if (s.params.maxW : Int) < width then [.w5] else []) ++
        (if (s.params.maxH : Int) < height then [.w5] else []) ∧
      t.pipe = (if s.pipe.modeLatched = s.config.displayMode then s.pipe
        else { s.pipe with fade := [], modeLatched := s.config.displayMode })

/-- The warnings of a normal `begin_frame`, in the order W1, W2, W3, W4, each exactly when its cause holds; with the
parameters of the specification W3 is never raised.

Rests on R153, R195, R196, R202, R405 and R409; decisions of the specification: D10 and D44; its own inferences in:
R196, R202 and R409; the model's choices: log 34. -/
def Obligations.WarningsComeInOrder : Prop :=
  ∀ s : State, s.fatal = false → s.scan.phase = .idle → s.config.displayMode = .normal →
    let P := s.params
    let C := resolveStandard P (decodeRegs P s.slots)
    let vact := activeCount P C
    let voff : Int := if C.isPal then P.vOffsetPal else P.vOffsetNtsc
    let v0 : Int := max (Int.tdiv (C.vsRaw - voff) 2) 0
    let tooHigh := (P.maxH : Int) < v0 + ((C.veRaw : Int) - C.vsRaw) / 2
    (P = Config.taken → ¬tooHigh) ∧
    ∃ t, exec .beginFrame s = .next t ∧
      t.log = s.log ++ (if s.slots.status.toNat % 4 = 1 then [.w1] else []) ++
        (if t.frame.hresClamped then [.w2] else []) ++ (if tooHigh then [.w3] else []) ++
        (if 0 ≤ vact ∧ vact ≤ P.maxH ∧ t.frame.isBlank = false ∧ t.frame.validh = true then
          List.replicate ((List.range t.frame.vres.toNat).filter fun y =>
            decide ((P.maxH : Int) ≤ outRow t.frame y)).length .w4
        else [])

/-- The render that follows a normal `begin_frame` stays inside the buffer and outside the cleared border.

Rests on R201, R211 and R323; decisions of the specification: D13; its own inferences in: R211 and R323. -/
def Obligations.RenderStaysInsideTheRaster : Prop :=
  ∀ s t : State, s.config.displayMode = .normal → exec .beginFrame s = .next t → t.scan.phase = .render →
    ∀ y ∈ renderedScanlines t, ∀ i : Nat, (i : Int) < t.frame.hres →
      0 ≤ outRow t.frame y ∧ outRow t.frame y < t.params.maxH ∧
        0 ≤ t.frame.hStart + i ∧ t.frame.hStart + i < t.params.maxW ∧
        inBorder t.frame (outRow t.frame y).toNat (t.frame.hStart + i).toNat = false

/-- With the parameters of the specification, every pixel index a normal frame can ask for lies in [-2^27, 2^27).

Rests on R205; its own inferences in: R205. -/
def Obligations.PixelIndicesStayInRange : Prop :=
  ∀ s t : State, s.params = Config.taken → s.config.displayMode = .normal → exec .beginFrame s = .next t →
    t.scan.phase = .render →
    ∀ y ∈ renderedScanlines t, ∀ i : Nat, (i : Int) < t.frame.hres →
      ∀ dr dc : Int, -1 ≤ dr → dr ≤ 2 → -3 ≤ dc → dc ≤ 4 →
        -(2 ^ 27) ≤ pixelIndex t.frame (srow t.frame y + dr) (scol t.frame i + dc) ∧
          pixelIndex t.frame (srow t.frame y + dr) (scol t.frame i + dc) < 2 ^ 27

/-- The worker pool when a frame goes on to its render: the worker count of the frame, every cache invalid, and the seeds
kept or set to `SEED_INIT` as the count has stayed or changed.

Rests on R344, R349 and R352; decisions of the specification: D41 and D49; the model's choices: log 11 and 31. -/
def Obligations.PoolIsReadyAtDispatch : Prop :=
  ∀ s t : State, s.wf = true → exec .beginFrame s = .next t → t.scan.phase = .render →
    let W := if s.config.numWorkers = 0 then max 1 s.params.hwThreads else s.config.numWorkers
    t.pool = W ∧ ∀ k, (getWorker t.params t.workers k).caches = {} ∧
      (getWorker t.params t.workers k).seed =
        if s.pool = W then (getWorker s.params s.workers k).seed else s.params.seedInit

/-! ### The render and the presentation -/

/-- A render whose workers do not fail stores in every pixel of every scanline the value computed without caches, leaves
every other pixel alone, and changes nothing else but the workers and the scan position.

Rests on R32, R324, R340, R341, R353 and R389; its own inferences in: R324, R341 and R353; the model's choices: log 5
and 18. -/
def Obligations.RenderWritesEveryPixelDirectly : Prop :=
  ∀ s : State, s.fatal = false → s.scan.phase = .render → s.wf = true → s.cachesCoherent = true →
    s.params.cachePromoteStale = false → s.params.ditherSource = .draw →
    (∀ f ∈ s.workerFailures, workerCount s.params s.sampled ≤ f.1) →
    (s.sampled.displayMode = .normal → s.frame.isBlank = false ∧ s.frame.validh = true) →
    ∃ t, exec .render s = .next t ∧
      t = { s with out := t.out, workers := t.workers, 
                   scan := ⟨.present,
                     (if s.sampled.displayMode = .normal then s.frame.vres else s.frame.vresRaw).toNat, 0⟩ } ∧
      (∀ y ∈ renderedScanlines s, ∀ i < lineLength s, inRaster s.params (targetRow s y) (targetColumn s i) = true →
        readOut s.params t.out (targetRow s y) (targetColumn s i) = directPixel s y i) ∧
      ∀ row col : Int,
        (∀ y ∈ renderedScanlines s, ∀ i < lineLength s, ¬(targetRow s y = row ∧ targetColumn s i = col)) →
        readOut s.params t.out row col = readOut s.params s.out row col

/-- What a render leaves in the buffer does not depend on the worker count, on what the workers hold or on the order in which
they run, under
`DITHER_SOURCE = DRAW`.

Rests on R348; its own inferences in: R348; the model's choices: log 5 and 14. -/
def Obligations.RenderDoesNotDependOnWorkers : Prop :=
  ∀ (s : State) (n pool : Nat) (ws : List (Nat × Worker)),
    let s' := (s.withSampled { s.sampled with numWorkers := n }).withPool pool ws
    s.fatal = false → s.scan.phase = .render → s.wf = true → s'.wf = true →
    s.cachesCoherent = true → s'.cachesCoherent = true →
    s.params.cachePromoteStale = false → s.params.ditherSource = .draw →
    s.workerFailures = [] →
    ∃ t t', exec .render s = .next t ∧ exec .render s' = .next t' ∧
      (∀ row col : Int, readOut s.params t.out row col = readOut s.params t'.out row col) ∧
      let W := workerCount s.params s.sampled
      ∀ order : List Nat, order.Perm (List.range W) → ∀ row col : Int,
        readOut s.params (order.foldl (runWorker W (renderedScanlines s)) s).out row col = readOut s.params t.out row col

/-- A render with no active pixels goes straight to the present phase; one in which a worker fails ends in Fatal F2, with
nothing presented and no other outcome.

Rests on R219, R340, R410 and R412; decisions of the specification: D48; its own inferences in: R219; the model's
choices: log 15 and 18 and 21 and 22. -/
def Obligations.RenderOfNothingAndWorkerFailure : Prop :=
  ∀ s : State, s.fatal = false → s.scan.phase = .render →
    (s.sampled.displayMode = .normal → (s.frame.isBlank = true ∨ s.frame.validh = false) →
      exec .render s = .next (s.withScan ⟨.present, 0, 0⟩)) ∧
    ((s.sampled.displayMode = .normal → s.frame.isBlank = false ∧ s.frame.validh = true) →
      (∃ f ∈ s.workerFailures, f.1 < workerCount s.params s.sampled) →
      ∃ t, exec .render s = .next t ∧ t.fatal = true ∧ t.result = some (.fatal .f2) ∧ t.scan.phase = .idle ∧
        t = { s with out := t.out, workers := t.workers, scan := t.scan, fatal := true, result := t.result,
                     handedOver := false })

/-- `SCANLINE` stores one scanline as the render does, or does nothing for a scanline the frame does not render.

Rests on R32, R341, R342 and R359; its own inferences in: R341 and R359; the model's choices: log 5 and 16 and 18. -/
def Obligations.ScanlineWritesItsRow : Prop :=
  ∀ (s : State) (y : Nat), s.fatal = false → s.scan.phase = .render → s.wf = true → s.cachesCoherent = true →
    s.params.cachePromoteStale = false → s.params.ditherSource = .draw →
    (y ∉ renderedScanlines s → exec (.scanline y) s = .next s) ∧
    (y ∈ renderedScanlines s →
      ∃ t, exec (.scanline y) s = .next t ∧
        t = { s with out := t.out, workers := t.workers,
                     scan := { s.scan with y := y + workerCount s.params s.sampled, i := 0 } } ∧
        (∀ k, k ≠ y % workerCount s.params s.sampled →
          getWorker s.params t.workers k = getWorker s.params s.workers k) ∧
        (∀ i < lineLength s, inRaster s.params (targetRow s y) (targetColumn s i) = true →
          readOut s.params t.out (targetRow s y) (targetColumn s i) = directPixel s y i) ∧
        ∀ row col : Int, (∀ i < lineLength s, ¬(targetRow s y = row ∧ targetColumn s i = col)) →
          readOut s.params t.out row col = readOut s.params s.out row col)

/-- The stride partition is exact: every scanline has one owner below `W`, and distinct scanlines distinct rows.

Rests on R345 and R346; its own inferences in: R346. -/
def Obligations.RowPartitionIsExact : Prop :=
  (∀ (W : Nat) (ys : List Nat), 1 ≤ W →
    (∀ y ∈ ys, ∃ k < W, y ∈ ownedScanlines W ys k) ∧
      (∀ k j y, y ∈ ownedScanlines W ys k → y ∈ ownedScanlines W ys j → k = j) ∧
      ∀ k y, y ∈ ownedScanlines W ys k → y ∈ ys) ∧
    ∀ (C : FrameConfig) (y y' : Nat), y < y' → outRow C y < outRow C y'

/-- `PRESENT` hands over the logical size of the display mode and ends the frame step. The sink then reads `Out` as it was
presented, and no operation writes it, until the next frame step starts; a read at any other moment is refused.

Rests on R325, R326, R334, R415 and R438; decisions of the specification: D40 and D43; its own inferences in: R334;
the model's choices: log 18 and 21 and 22 and 27. -/
def Obligations.PresentHandsOverTheFrame : Prop :=
  (∀ s : State, s.fatal = false → s.scan.phase = .present →
    let size : Nat × Nat :=
      if s.sampled.displayMode = .normal then (s.params.maxW, s.frame.vactive.toNat)
      else (s.frame.hresRaw.toNat, s.frame.vresRaw.toNat)
    let t := (((s.withPresented ⟨size.1, size.2, size.1, size.2⟩).withResult .frame).withHandedOver true).withScan
      ⟨.idle, 0, 0⟩
    exec .present s = .next t ∧ ∀ row col, sinkRead t row col = .next (readOut s.params s.out row col)) ∧
  (∀ (i : Instr) (s t : State), exec i s = .next t →
    (i = .frameStep → ∀ row col, sinkRead t row col =
      if t.result = some .frame then .next (readOut s.params t.out row col) else .refused .sinkReadDuringFrameStep) ∧
    (i ∈ [Instr.beginFrame, .fmtBlank, .modeNormal] →
      ∀ row col, sinkRead t row col = .refused .sinkReadDuringFrameStep) ∧
    (s.scan.phase = .idle → i ∉ [Instr.frameStep, .beginFrame, .fmtBlank, .modeNormal] →
      t.out = s.out ∧ ∀ row col, sinkRead t row col = sinkRead s row col)) ∧
  (∀ (st : HostStore) (s t : State), execStore st s = .next t →
    t.out = s.out ∧ ∀ row col, sinkRead t row col = sinkRead s row col) ∧
  ∀ (s : State) (row col : Nat),
    (s.scan.phase ≠ .idle → sinkRead s row col = .refused .sinkReadDuringFrameStep) ∧
      sinkRead (resetBlock s) row col = .refused .sinkReadDuringFrameStep

/-- The four fast pixel operations on a pixel of the frame: the decode, gamma and dither, for every dither sequence or from the
owner's next seed, the store of one word, and nothing else. A pixel outside the frame does nothing, which is the model's
choice (`notes/assumptions/29.md`).

Rests on R317, R385, R386, R387, R388, R389, R392, R393, R394 and R395; decisions of the specification: D30, D33, D34,
D35 and D51; its own inferences in: R317, R392, R393, R394 and R395; the model's choices: log 5 and 6 and 17 and 18
and 29. -/
def Obligations.FastPixelsDecodeAndStore : Prop :=
  ∀ (s : State) (y x : Nat), s.fatal = false → s.scan.phase = .render → s.wf = true →
    let lines : Int := if s.sampled.displayMode = .normal then s.frame.vres else s.frame.vresRaw
    let pixels : Int := if s.sampled.displayMode = .normal then s.frame.hres else s.frame.hresRaw
    let line : Int := y * s.frame.w
    let p := (read16 s.params s.memory (s.frame.base16 + line + x)).toNat
    let h := (readHidden s.params s.memory (s.frame.base16 + line + x)).toNat
    let q := (read32 s.params s.memory (s.frame.base32 + line + x)).toNat
    let z := (read16 s.params s.memory (((s.sampled.zbAddress / 2 : Nat) : Int) + line + x)).toNat
    let rgb := fun r g b : Nat => (⟨BitVec.ofNat 8 r, BitVec.ofNat 8 g, BitVec.ofNat 8 b⟩ : Colour)
    let raw16 :=
      if s.params.fastExpand = .replicate then
        rgb (((p >>> 8) &&& 0xF8) ||| (p >>> 13)) (((p >>> 3) &&& 0xF8) ||| ((p >>> 8) &&& 7))
          (((p <<< 2) &&& 0xF8) ||| ((p >>> 3) &&& 7))
      else rgb ((p >>> 8) &&& 0xF8) ((p >>> 3) &&& 0xF8) ((p <<< 2) &&& 0xF8)
    let cvg := ((((p &&& 1) <<< 2) ||| h) <<< 5)
    let owner := y % (if s.sampled.numWorkers = 0 then max 1 s.params.hwThreads else s.sampled.numWorkers)
    let old := getWorker s.params s.workers owner
    let seed : Word := if s.frame.gdMode = .dither ∨ s.frame.gdMode = .gammaDither
      then BitVec.ofNat 32 (old.seed.toNat * 0x343FD + 0x269EC3) else old.seed
    let rnd := (seed.toNat >>> 16) % 2 ^ 15
    let bits1 := fun ch : Channel => BitVec.ofNat 1 (match ch with | .r => rnd | .g => rnd >>> 1 | .b => rnd >>> 2)
    let bits6 := fun ch : Channel =>
      BitVec.ofNat 6 (match ch with | .r => rnd | .g => rnd >>> 6 | .b => ((rnd >>> 9) &&& 0x38) ||| (rnd &&& 7))
    ∀ e ∈ [(Instr.rawColor16 y x, raw16),
        (Instr.rawColor32 y x, rgb ((q >>> 24) &&& 0xFF) ((q >>> 16) &&& 0xFF) ((q >>> 8) &&& 0xFF)),
        (Instr.depth y x, rgb (z >>> 8) (z >>> 8) (z >>> 8)), (Instr.coverage y x, rgb cvg cvg cvg)],
      ((y : Int) < lines ∧ (x : Int) < pixels →
        ∃ o ws, exec e.1 s = .next (((s.withOut o).withWorkers ws).withScan { s.scan with y := y, i := x + 1 }) ∧
          (s.params.ditherSource = .draw →
            (∀ k, getWorker s.params ws k = getWorker s.params s.workers k) ∧
            (y < s.params.maxH → x < s.params.maxW → readOut s.params o y x =
              pack (gammaDither s.frame.gdMode (Config.dither1 s.draws y x) (Config.dither6 s.draws y x) e.2))) ∧
          (s.params.ditherSource = .lcg →
            (∀ k, getWorker s.params ws k =
              if k = owner then ⟨seed, old.caches⟩ else getWorker s.params s.workers k) ∧
            (y < s.params.maxH → x < s.params.maxW →
              readOut s.params o y x = pack (gammaDither s.frame.gdMode bits1 bits6 e.2))) ∧
          ∀ r c : Int, (r ≠ y ∨ c ≠ x) → readOut s.params o r c = readOut s.params s.out r c) ∧
      (¬((y : Int) < lines ∧ (x : Int) < pixels) → exec e.1 s = .next s)

/-! ### The frame step -/

/-- How a normal frame step whose workers do not fail ends, in the order F1, S1, S2, and what is then presented. The phase is
`IDLE` again however it ends.

Rests on R181, R197, R198, R207, R219, R325, R327, R402, R407 and R409; decisions of the specification: D11, D16, D17,
D43 and D48; its own inferences in: R219, R407 and R409; the model's choices: log 9 and 18 and 21 and 22. -/
def Obligations.NormalFrameStepOutcome : Prop :=
  ∀ s : State, s.fatal = false → s.scan.phase = .idle → s.config.displayMode = .normal →
    (∀ f ∈ s.workerFailures, workerCount s.params s.config ≤ f.1) →
    let C := resolveStandard s.params (decodeRegs s.params s.slots)
    let vact := activeCount s.params C
    ∃ t, exec .frameStep s = .next t ∧
      t.result = some (if (s.params.maxH : Int) < vact then .fatal .f1 else if vact < 0 then .skip .s1
        else if C.isBlank = true ∧ s.config.tvFade = false ∧ s.pipe.prevWasBlank = true then .skip .s2 else .frame) ∧
      t.fatal = decide ((s.params.maxH : Int) < vact) ∧
      t.scan = ⟨.idle, 0, 0⟩ ∧
      t.presented = (if t.result = some .frame then
          some ⟨s.params.maxW, t.frame.vactive.toNat, s.params.maxW, t.frame.vactive.toNat⟩
        else s.presented) ∧
      t.pipe.modeLatched = .normal ∧
      (t.result ≠ some .frame → t.pipe.prevWasBlank = s.pipe.prevWasBlank ∧
        t.out = (if s.pipe.modeLatched = .normal then s.out else []) ∧
        t.pipe.fade = if s.pipe.modeLatched = .normal then s.pipe.fade else [])

/-- How a fast frame step whose workers do not fail ends, in the order S3, S4, S5, and what is then presented.

Rests on R181, R219, R381, R384, R390 and R407; decisions of the specification: D17 and D34; its own inferences in:
R219 and R407; the model's choices: log 18 and 21 and 22. -/
def Obligations.FastFrameStepOutcome : Prop :=
  ∀ s : State, s.fatal = false → s.scan.phase = .idle → s.config.displayMode ≠ .normal →
    (∀ f ∈ s.workerFailures, workerCount s.params s.config ≤ f.1) →
    let C := decodeRegs s.params s.slots
    let width : Int := Int.tdiv (C.xAdd * ((C.heRaw : Int) - C.hsRaw)) 1024
    let height : Int := Int.tdiv (C.yAdd * (((C.veRaw : Int) - C.vsRaw) / 2)) 1024
    ∃ t, exec .frameStep s = .next t ∧
      t.result = some (if width ≤ 0 ∨ height ≤ 0 then .skip .s3 else if C.vcurParity = true then .skip .s4
        else if C.isBlank = true then .skip .s5 else .frame) ∧
      t.fatal = false ∧ t.scan = ⟨.idle, 0, 0⟩ ∧
      t.presented = (if t.result = some .frame then
          some ⟨t.frame.hresRaw.toNat, t.frame.vresRaw.toNat, t.frame.hresRaw.toNat, t.frame.vresRaw.toNat⟩
        else s.presented) ∧
      t.pipe = (if s.pipe.modeLatched = s.config.displayMode then s.pipe
        else { s.pipe with fade := [], modeLatched := s.config.displayMode }) ∧
      (t.result ≠ some .frame → t.out = if s.pipe.modeLatched = s.config.displayMode then s.out else [])

/-- A frame step is its parts: `BEGIN_FRAME`, then `RENDER` and `PRESENT` unless a Skip or a Fatal has ended it.

Rests on R180, R218, R219, R334 and R358; decisions of the specification: D43; its own inferences in: R218, R219, R334
and R358. -/
def Obligations.FrameStepIsItsParts : Prop :=
  ∀ s b : State, exec .beginFrame s = .next b →
    (b.scan.phase ≠ .render → exec .frameStep s = .next b) ∧
    (b.scan.phase = .render →
      ∃ r, exec .render b = .next r ∧
        (r.fatal = true → exec .frameStep s = .next r) ∧
        (r.fatal = false → ∃ p, exec .present r = .next p ∧ exec .frameStep s = .next p))

/-! ### The machine as a whole -/

/-- What a reset of any state leaves: the values of the specification, for every register, row, pixel and worker, and the
constant tables; the host's memory, registers and configuration are not touched. A host that has set nothing leaves the
configuration defaults. `SEED_INIT` and the fields of `C` that are not built are the model's (`notes/assumptions/2.md`,
`3.md`), as is that reset is no request (`26.md`).

Rests on R12, R36, R40, R44, R252, R430, R431 and R434; decisions of the specification: D24, D38, D41 and D52; its own
inferences in: R44; the model's choices: log 2 and 3 and 26. -/
def Obligations.ResetLeavesTheStatedValues : Prop :=
  (∀ s0 : State,
    let s := resetBlock s0
    (∀ n, s.reg.get n = 0) ∧ s.pipe.prevSerrate = false ∧ s.pipe.prevVcurParity = false ∧ s.pipe.oldVstart = 0 ∧
      s.pipe.lowerField = false ∧ s.pipe.emuParity = .undetermined ∧ s.pipe.prevWasBlank = false ∧
      (∀ row, readFade s.pipe.fade row = 0) ∧ s.pipe.modeLatched = .normal ∧
      (∀ row col : Int, readOut s.params s.out row col = 0) ∧
      (∀ k, getWorker s.params s.workers k = ⟨s.params.seedInit, {}⟩) ∧ s.log = [] ∧ s.fatal = false ∧
      s.presented = none ∧ s.scan.phase = .idle ∧
      s.memory = s0.memory ∧ s.slots = s0.slots ∧ s.config = s0.config) ∧
  resetBlock State.reset = State.reset ∧
  State.reset.config.displayMode = .normal ∧ State.reset.config.tvFade = false ∧ State.reset.config.numWorkers = 0 ∧
    State.reset.config.widescreen = false ∧ State.reset.config.traceRecord = false ∧
    ∀ n5 c5 : BitVec 5, restoreTable (n5 ++ c5) = Int.sign ((n5.toNat : Int) - c5.toNat)

/-- Every invariant stated below holds after reset, and a reset of any well-formed state leaves them all.

Rests on R32, R36, R44, R80 and R434; decisions of the specification: D38; its own inferences in: R44; the model's
choices: log 2 and 26. -/
def Obligations.ResetMeetsTheInvariants : Prop :=
  (State.reset.wf = true ∧ State.reset.cachesCoherent = true ∧ State.reset.phaseLegal = true ∧
    State.reset.rangesLegal = true ∧ State.reset.activeLegal = true) ∧
  ∀ s : State, s.wf = true → (resetBlock s).wf = true ∧ (resetBlock s).cachesCoherent = true ∧
    (resetBlock s).phaseLegal = true ∧ (resetBlock s).rangesLegal = true ∧ (resetBlock s).activeLegal = true

/-- Every step keeps memory, the output buffer, the fade table and the workers in their one canonical form, inside their
spaces.

Rests on R36, R37 and R80; decisions of the specification: D42; the model's choices: log 1. -/
def Obligations.StepKeepsTheFormOfTheState : Prop :=
  ∀ s t : State, s.wf = true → step s = .next t → t.wf = true

/-- Every step keeps the caches coherent: between dispatch and join no cache holds a value other than the one computed
afresh.

Rests on R351, R352, R353 and R355; decisions of the specification: D31 and D32; its own inferences in: R351 and R353. -/
def Obligations.StepKeepsTheCachesCoherent : Prop :=
  ∀ s t : State, s.cachesCoherent = true → step s = .next t → t.cachesCoherent = true

/-- Every step keeps the phase legal and the fields of `C` and `S` in their ranges; `C.vactive` alone can leave its range, and
only by a scan operation asked for alone while the active-line count is out of it, which is the model's choice
(`notes/assumptions/28.md`).

Rests on R32, R34, R36, R197, R198, R199 and R326; decisions of the specification: D11 and D43; its own inferences in:
R199; the model's choices: log 9 and 18 and 22 and 28 and 33. -/
def Obligations.StepKeepsTheRanges : Prop :=
  ∀ s t : State, step s = .next t →
    (s.phaseLegal = true → t.phaseLegal = true) ∧ (s.rangesLegal = true → t.rangesLegal = true) ∧
      ((∀ r rest, s.requests = r :: rest → decode r = .ok .scanProgressive ∨ decode r = .ok .scanInterlaced →
          0 ≤ activeCount s.params s.frame ∧ activeCount s.params s.frame ≤ s.params.maxH) →
        s.activeLegal = true → t.activeLegal = true)

/-- The fatal mark is false at reset, is set by a Fatal and by nothing else, and no step clears it, while reset does.

Rests on R403 and R430; decisions of the specification: D38; the model's choices: log 21 and 26. -/
def Obligations.FatalMarkIsForEver : Prop :=
  State.reset.fatal = false ∧ (∀ s, (resetBlock s).fatal = false) ∧ (∀ code s, (raiseFatal code s).fatal = true) ∧
    ∀ s t : State, step s = .next t → (s.fatal = true → t.fatal = true) ∧
      (s.fatal = false → t.fatal = true → ∃ code, t.result = some (.fatal code))

/-- Once stuck the block refuses every operation of its own; an operation outside its phase is refused too
(`notes/assumptions/12.md`).

Rests on R32, R34 and R402; decisions of the specification: D48; the model's choices: log 12 and 20. -/
def Obligations.StuckAndMisplacedOperationsAreRefused : Prop :=
  (∀ (i : Instr) (s : State), s.fatal = true →
    (∃ n v, i = .wreg n v) ∨ (∃ c, i = .cfg c) ∨ exec i s = .refused .afterFatal) ∧
  ∀ s : State, s.fatal = false →
    (s.scan.phase ≠ .idle → ∀ i ∈ [Instr.frameStep, .beginFrame], exec i s = .refused (.outOfPhase s.scan.phase)) ∧
    (s.scan.phase ≠ .render → ∀ y x, ∀ i ∈ [Instr.render, .scanline y, .pixelWrite, .rawColor16 y x, .rawColor32 y x,
      .depth y x, .coverage y x], exec i s = .refused (.outOfPhase s.scan.phase)) ∧
    (s.scan.phase ≠ .present → exec .present s = .refused (.outOfPhase s.scan.phase)) ∧
    (s.scan.phase = .render ∨ s.scan.phase = .present →
      ∀ i ∈ [Instr.fmtBlank, .fmtReserved, .scanProgressive, .scanInterlaced, .aaMode00, .aaMode01, .aaMode10, .aaMode11,
        .modeNormal], exec i s = .refused (.outOfPhase s.scan.phase))

/-- Once the parity control is decided, no step changes it.

Rests on R189. -/
def Obligations.ParityControlIsDecidedOnce : Prop :=
  ∀ s t : State, step s = .next t → s.pipe.emuParity ≠ .undetermined → t.pipe.emuParity = s.pipe.emuParity

/-- Who writes what: no operation writes memory, only `begin_frame` writes the snapshot, only a present the descriptor, in
the render phase no operation writes `C`, `S` or the log, and the frame operations leave the pixel latches alone.

Rests on R33, R34, R36, R81, R89, R217, R404 and R410; decisions of the specification: D48; the model's choices: log 3
and 5 and 6 and 13 and 15. -/
def Obligations.OperationsWriteOnlyWhatTheyOwn : Prop :=
  ∀ (i : Instr) (s t : State), exec i s = .next t →
    t.memory = s.memory ∧ t.params = s.params ∧ t.requests = s.requests ∧ t.workerFailures = s.workerFailures ∧
      (i ≠ .frameStep → i ≠ .beginFrame → t.reg = s.reg ∧ t.draws = s.draws) ∧
      (i ≠ .frameStep → i ≠ .present → t.presented = s.presented) ∧
      (∀ y, i ∈ [Instr.frameStep, .beginFrame, .render, .present, .scanline y] → t.latch = s.latch) ∧
      (s.scan.phase = .render → t.frame = s.frame ∧ t.pipe = s.pipe ∧ t.log = s.log) ∧
      ((∀ n v, i ≠ .wreg n v) → t.slots = s.slots) ∧ ((∀ c, i ≠ .cfg c) → t.config = s.config)

/-- The outcome log only grows at its end.

Rests on R404; decisions of the specification: D48. -/
def Obligations.OutcomeLogOnlyGrows : Prop :=
  ∀ s t : State, step s = .next t → s.log <+: t.log

/-- Nothing but the capture reads the register slots: outside it, an operation does the same whatever they hold, and
leaves them so.

Rests on R97, R150 and R436. -/
def Obligations.OnlyTheCaptureReadsTheSlots : Prop :=
  ∀ (i : Instr) (s t : State) (r : Regs), i ≠ .frameStep → i ≠ .beginFrame → (∀ n v, i ≠ .wreg n v) →
    exec i s = .next t → exec i (s.withSlots r) = .next (t.withSlots r)

/-- A lookup of a cache that holds exactly the columns from its lowest to its high-water mark, at most its depth of them,
answers the entry held and changes nothing, or fills one column past the mark and evicts the one `CACHE_DEPTH` below it,
or resets to that one column; it leaves such a cache, in which the column is a hit. At the start of a scanline the
next-line caches of its row become the current-line ones, and every other cache is empty. A promoted cache carries fetch
state 0 (`notes/assumptions/10.md`).

Rests on R350, R351, R352 and R355; decisions of the specification: D31 and D32; its own inferences in: R351; the
model's choices: log 10. -/
def Obligations.LookupKeepsTheCacheShape : Prop :=
  (∀ (depth : Nat) (c : LineCache) (row col : Int) (fs : FetchState) (v : Sample), 1 ≤ depth → cacheShaped depth c →
    let found := cacheLookup depth c row col fs v
    let mine := fun k : CacheMarker => c.marker = some k ∧ k.row = row ∧ k.fs = fs
    cacheShaped depth found.2 ∧ cacheHit found.2 row col fs = some found.1 ∧
      (∀ k, mine k → k.lo ≤ col → col ≤ k.hwm → (col, found.1) ∈ c.entries ∧ found.2 = c) ∧
      (∀ k, mine k → col = k.hwm + 1 →
        found.1 = v ∧ found.2.marker = some ⟨row, fs, max k.lo (col - depth + 1), col⟩ ∧
          ∀ e, e ∈ found.2.entries ↔ (e ∈ c.entries ∧ e.1 ≠ col - depth) ∨ e = (col, v)) ∧
      ((∀ k, mine k → col < k.lo ∨ k.hwm + 1 < col) → found = (v, ⟨some ⟨row, fs, col, col⟩, [(col, v)]⟩))) ∧
  ∀ (P : Params) (row : Int) (k : WorkerCaches),
    (promote P row k).next = {} ∧ (promote P row k).dnext = {} ∧
      ∀ c ∈ [(k.next, (promote P row k).cur), (k.dnext, (promote P row k).dcur)],
        (∀ m, c.1.marker = some m → m.row = row → (m.fs = .fs0 ∨ P.cachePromoteStale = true) →
          c.2 = ⟨some ⟨row, .fs0, m.lo, m.hwm⟩, c.1.entries⟩) ∧
        ((∀ m, c.1.marker = some m → m.row = row → m.fs ≠ .fs0 ∧ P.cachePromoteStale = false) → c.2 = {})

/-! ### The stages of a pixel together, and the seeded dither -/

/-- The stages asked for one after another compute the pixel of the render: the resolve selector on a fetched sample, the
divot selector on three resolved samples, the scaler on four corners, gamma and dither on the scaled colour, and the
write.

Rests on R247, R248, R249, R290, R296, R298, R302, R310, R321 and R324; decisions of the specification: D25 and D27;
its own inferences in: R248 and R324; the model's choices: log 5 and 6. -/
def Obligations.StagesComposeThePixel : Prop :=
  ∀ s : State, s.fatal = false →
    let P := s.params
    let m := s.memory
    let C := s.frame
    (∀ (row col : Int) (slot : Slot) (line : Line),
      let idx : Int := (if C.is32 then (C.base32 : Int) else C.base16) + row * C.w + col
      let fs := if line = .current then FetchState.fs0 else s.latch.fs
      ∃ t u, exec (if C.is32 then .fetch8888 idx else .fetch5551 idx) s = .next t ∧
        exec
            (if t.latch.fetched.cvg = 7 then
              (if C.restoreEn then (if C.is32 then .restore32 slot line else .restore16 slot line) else .resolvePass slot)
            else (if C.is32 then .blend32 slot line else .blend16 slot line)) t = .next u ∧
        u = s.withLatch (putSlot t.latch slot (resolvedSample P m C row col fs)) ∧
        (resolvedSample P m C row col fs).cvg = t.latch.fetched.cvg ∧
        (C.covExtract = false → t.latch.fetched.cvg = 7 ∧
          (C.restoreEn = false → resolvedSample P m C row col fs = t.latch.fetched))) ∧
    (∀ (row col : Int) (fs : FetchState) (corner : Corner),
      s.latch.left = resolvedSample P m C row (col - 1) fs → s.latch.centre = resolvedSample P m C row col fs →
      s.latch.right = resolvedSample P m C row (col + 1) fs →
      exec (if C.divotEn then .divotOn corner else .divotOff corner) s =
        .next (s.withLatch (putCorner s.latch corner (divotSample P m C row col fs)))) ∧
    (let y : Int := s.scan.y
     let i : Int := s.scan.i
     let row := (C.yStart + y * C.yAdd) / 1024
     let col := (C.xStart + i * C.xAdd) / 1024
     let yf := ((C.yStart + y * C.yAdd) / 32) % 32
     let xf := ((C.xStart + i * C.xAdd) / 32) % 32
     let fs := fetchStateOf P C y
     s.latch.c00 = divotSample P m C row col .fs0 → s.latch.c01 = divotSample P m C row (col + 1) .fs0 →
     s.latch.c10 = divotSample P m C (row + 1) col fs → s.latch.c11 = divotSample P m C (row + 1) (col + 1) fs →
     exec (if C.bilinearEn = true ∧ (xf ≠ 0 ∨ yf ≠ 0) then .lerp else .noLerp) s =
       .next (s.withLatch { s.latch with
         colour := scaledColour P m C y i, colourCvg := (resolvedSample P m C row col .fs0).cvg })) ∧
    (let y := s.scan.y
     let i := s.scan.i
     s.scan.phase = .render → s.sampled.displayMode = .normal → s.wf = true → P.ditherSource = .draw →
     (y : Int) < C.vres → (i : Int) < C.hres → s.latch.colour = scaledColour P m C y i →
     s.latch.clipped = decide ((i : Int) < C.marginLo ∨ C.marginHi ≤ (i : Int)) →
     ∃ t u, exec (match C.gdMode with
           | .none => .gdNone | .dither => .gdDither | .gamma => .gdGamma | .gammaDither => .gdGammaDither) s = .next t ∧
       exec .pixelWrite t = .next u ∧
       (inRaster P (targetRow s y) (targetColumn s i) = true →
         readOut P u.out (targetRow s y) (targetColumn s i) = directPixel s y i))

/-- Under `DITHER_SOURCE = LCG` every pixel that takes dither values takes them from its worker's seed, advanced once for
each such pixel in increasing line and pixel: along one scanline, and along a whole render, whose buffer depends on the
worker count and not on the order the workers run in. Every other pixel is left as before, and nothing else changes but the
workers and the scan position.

Rests on R317, R341, R342, R343, R344, R345, R348 and R389; decisions of the specification: D30 and D41; its own
inferences in: R317, R341, R343 and R348; the model's choices: log 14 and 15 and 16 and 18. -/
def Obligations.SeededRenderFollowsTheSeeds : Prop :=
  (∀ s : State, s.fatal = false → s.scan.phase = .render → s.wf = true → s.cachesCoherent = true →
    s.params.cachePromoteStale = false → s.params.ditherSource = .lcg →
    let P := s.params
    let C := s.frame
    let W := if s.sampled.numWorkers = 0 then max 1 P.hwThreads else s.sampled.numWorkers
    let normal := decide (s.sampled.displayMode = .normal)
    let clipped := fun i : Nat => normal && decide ((i : Int) < C.marginLo ∨ C.marginHi ≤ (i : Int))
    let advance := fun seed : Word => seed * 0x343FD + 0x269EC3
    let after := fun (n : Nat) (seed : Word) =>
      if C.gdMode = .dither ∨ C.gdMode = .gammaDither then
        advance^[((List.range n).filter fun i => !clipped i).length] seed
      else seed
    let pixel := fun (y i : Nat) (seed : Word) =>
      let rnd := ((after (i + 1) seed).toNat >>> 16) % 2 ^ 15
      let bits1 := fun ch : Channel => BitVec.ofNat 1 (match ch with | .r => rnd | .g => rnd >>> 1 | .b => rnd >>> 2)
      let bits6 := fun ch : Channel =>
        BitVec.ofNat 6 (match ch with | .r => rnd | .g => rnd >>> 6 | .b => ((rnd >>> 9) &&& 0x38) ||| (rnd &&& 7))
      if clipped i then 0
      else pack (gammaDither C.gdMode bits1 bits6
        (if normal then scaledColour P s.memory C y i else fastColour P s.memory s.sampled C y i))
    let seedOf := fun k : Nat => (getWorker P s.workers k).seed
    (∀ y : Nat, y ∉ renderedScanlines s → exec (.scanline y) s = .next s) ∧
    (∀ y ∈ renderedScanlines s, ∃ t, exec (.scanline y) s = .next t ∧
      t = { s with out := t.out, workers := t.workers, scan := { s.scan with y := y + W, i := 0 } } ∧
      (∀ k, k ≠ y % W → getWorker P t.workers k = getWorker P s.workers k) ∧
      (getWorker P t.workers (y % W)).seed = after (lineLength s) (seedOf (y % W)) ∧
      (∀ i < lineLength s, inRaster P (targetRow s y) (targetColumn s i) = true →
        readOut P t.out (targetRow s y) (targetColumn s i) = pixel y i (seedOf (y % W))) ∧
      ∀ row col : Int, (∀ i < lineLength s, ¬(targetRow s y = row ∧ targetColumn s i = col)) →
        readOut P t.out row col = readOut P s.out row col) ∧
    ((∀ f ∈ s.workerFailures, W ≤ f.1) →
      (s.sampled.displayMode = .normal → C.isBlank = false ∧ C.validh = true) →
      ∃ t, exec .render s = .next t ∧
        t = { s with out := t.out, workers := t.workers, scan := ⟨.present, scanlineCount s, 0⟩ } ∧
        (∀ k, W ≤ k → getWorker P t.workers k = getWorker P s.workers k) ∧
        (∀ k < W, (getWorker P t.workers k).seed =
          (after (lineLength s))^[(ownedScanlines W (renderedScanlines s) k).length] (seedOf k)) ∧
        (∀ row col : Int,
          (∀ y ∈ renderedScanlines s, ∀ i < lineLength s, ¬(targetRow s y = row ∧ targetColumn s i = col)) →
          readOut P t.out row col = readOut P s.out row col) ∧
        (∀ y ∈ renderedScanlines s, ∀ i < lineLength s, inRaster P (targetRow s y) (targetColumn s i) = true →
          readOut P t.out (targetRow s y) (targetColumn s i) =
            pixel y i ((after (lineLength s))^[((ownedScanlines W (renderedScanlines s) (y % W)).filter
              fun y' => decide (y' < y)).length] (seedOf (y % W)))) ∧
        ∀ order : List Nat, order.Perm (List.range W) → ∀ row col : Int,
          readOut P (order.foldl (runWorker W (renderedScanlines s)) s).out row col = readOut P t.out row col)) ∧
  ∃ (s : State) (n : Nat) (t t' : State), s.params.ditherSource = .lcg ∧ exec .render s = .next t ∧
    exec .render (s.withSampled { s.sampled with numWorkers := n }) = .next t' ∧
    ∃ row col : Int, readOut s.params t.out row col ≠ readOut s.params t'.out row col
end

