-- ==== Sys2Proof/Laws/Sparse.lean ====
section
/-! SUPPORT. Laws of the sparse maps: read after write, and every operation keeps the canonical form. -/

namespace Sys2Proof.Machine

variable {α : Type}

/-- A canonical map whose first key is at least `b`: the form an induction goes through. -/
def keysFrom (b : Nat) : List (Nat × α) → Prop
  | [] => True
  | e :: rest => b ≤ e.1 ∧ keysFrom (e.1 + 1) rest

theorem keysFrom_mono {b c : Nat} (h : c ≤ b) : ∀ {m : List (Nat × α)}, keysFrom b m → keysFrom c m
  | [], _ => trivial
  | _ :: _, hm => ⟨Nat.le_trans h hm.1, hm.2⟩

theorem keysRise_iff_keysFrom : ∀ (m : List (Nat × α)), keysRise m = true ↔ keysFrom 0 m
  | [] => by simp [keysRise, keysFrom]
  | [e] => by simp [keysRise, keysFrom]
  | e :: f :: rest => by
    have ih := keysRise_iff_keysFrom (f :: rest)
    simp only [keysRise, keysFrom, Bool.and_eq_true, decide_eq_true_eq, Nat.zero_le, true_and] at ih ⊢
    rw [ih]
    constructor
    · rintro ⟨h1, h2⟩; exact ⟨h1, h2⟩
    · rintro ⟨h1, h2⟩; exact ⟨h1, h2⟩

/-- Every listed key is at least the bound. -/
theorem keysFrom_le_of_mem {b : Nat} : ∀ {m : List (Nat × α)}, keysFrom b m → ∀ e ∈ m, b ≤ e.1
  | _ :: rest, h, e, he => by
    rcases List.mem_cons.1 he with rfl | he
    · exact h.1
    · exact Nat.le_trans (Nat.le_trans h.1 (Nat.le_succ _)) (keysFrom_le_of_mem h.2 e he)

/-- A key below the bound reads as the default. -/
theorem sparseGet_below (d : α) {b k : Nat} : ∀ {m : List (Nat × α)}, keysFrom b m → k < b → sparseGet d m k = d
  | [], _, _ => rfl
  | e :: rest, h, hk => by
    have hne : e.1 ≠ k := by have := h.1; omega
    simp only [sparseGet, hne, if_false]
    exact sparseGet_below d h.2 (by have := h.1; omega)

section
variable [DecidableEq α]

theorem keysFrom_put (d : α) (k : Nat) (v : α) :
    ∀ {b : Nat} {m : List (Nat × α)}, b ≤ k → keysFrom b m → keysFrom b (sparsePut d k v m)
  | b, [], hb, _ => by
    unfold sparsePut
    split
    · trivial
    · exact ⟨hb, trivial⟩
  | b, e :: rest, hb, h => by
    unfold sparsePut
    split
    · next hlt => exact ⟨h.1, keysFrom_put d k v hlt h.2⟩
    · next hge =>
      split
      · next heq =>
        split
        · exact keysFrom_mono (by omega) h.2
        · exact ⟨hb, by simpa [heq] using h.2⟩
      · next hne =>
        split
        · exact h
        · exact ⟨hb, ⟨by omega, h.2⟩⟩

/-- A write keeps the keys rising. -/
theorem keysRise_put (d : α) (k : Nat) (v : α) {m : List (Nat × α)} (h : keysRise m = true) :
    keysRise (sparsePut d k v m) = true :=
  (keysRise_iff_keysFrom _).2 (keysFrom_put d k v (Nat.zero_le _) ((keysRise_iff_keysFrom _).1 h))

/-- Every entry after a write is an old one or the written one, which is not the default. -/
theorem mem_put (d : α) (k : Nat) (v : α) :
    ∀ {m : List (Nat × α)}, ∀ e ∈ sparsePut d k v m, e ∈ m ∨ (e = (k, v) ∧ v ≠ d)
  | [], e, he => by
    unfold sparsePut at he
    split at he
    · cases he
    · next hv => exact .inr ⟨by simpa using he, hv⟩
  | a :: rest, e, he => by
    unfold sparsePut at he
    split at he
    · rcases List.mem_cons.1 he with rfl | he
      · exact .inl (List.mem_cons_self ..)
      · exact (mem_put d k v e he).imp (List.mem_cons_of_mem _) id
    · split at he
      · split at he
        · exact .inl (List.mem_cons_of_mem _ he)
        · next hv =>
          rcases List.mem_cons.1 he with rfl | he
          · exact .inr ⟨rfl, hv⟩
          · exact .inl (List.mem_cons_of_mem _ he)
      · split at he
        · exact .inl he
        · next hv =>
          rcases List.mem_cons.1 he with rfl | he
          · exact .inr ⟨rfl, hv⟩
          · exact .inl he

/-- A write keeps any property of entries that the written entry has. -/
theorem all_put (d : α) (k : Nat) (v : α) (p : Nat × α → Bool) {m : List (Nat × α)} (h : m.all p = true)
    (hp : v ≠ d → p (k, v) = true) : (sparsePut d k v m).all p = true := by
  rw [List.all_eq_true] at h ⊢
  intro e he
  rcases mem_put d k v e he with hm | ⟨rfl, hv⟩
  · exact h e hm
  · exact hp hv

/-- A write keeps the canonical form. -/
theorem sparseWf_put (d : α) (k : Nat) (v : α) {m : List (Nat × α)} (h : sparseWf d m = true) :
    sparseWf d (sparsePut d k v m) = true := by
  simp only [sparseWf, Bool.and_eq_true] at h ⊢
  exact ⟨keysRise_put d k v h.1, all_put d k v _ h.2 (by simp)⟩

/-- The empty map is canonical. -/
@[simp] theorem sparseWf_nil (d : α) : sparseWf d ([] : List (Nat × α)) = true := rfl

omit [DecidableEq α] in
theorem keysFrom_filter (p : Nat × α → Bool) :
    ∀ {b : Nat} {m : List (Nat × α)}, keysFrom b m → keysFrom b (m.filter p)
  | _, [], _ => trivial
  | b, e :: rest, h => by
    rw [List.filter_cons]
    split
    · exact ⟨h.1, keysFrom_filter p h.2⟩
    · exact keysFrom_mono (by have := h.1; omega) (keysFrom_filter p h.2)

/-- Dropping entries keeps the canonical form. -/
theorem sparseWf_filter (d : α) (p : Nat × α → Bool) {m : List (Nat × α)} (h : sparseWf d m = true) :
    sparseWf d (m.filter p) = true := by
  simp only [sparseWf, Bool.and_eq_true, List.all_eq_true] at h ⊢
  exact ⟨(keysRise_iff_keysFrom _).2 (keysFrom_filter p ((keysRise_iff_keysFrom _).1 h.1)),
    fun e he => h.2 e (List.mem_of_mem_filter he)⟩

/-- Read after write at the same key. -/
theorem sparseGet_put_self (d : α) (k : Nat) (v : α) :
    ∀ {b : Nat} {m : List (Nat × α)}, keysFrom b m → sparseGet d (sparsePut d k v m) k = v
  | _, [], _ => by
    unfold sparsePut
    split
    · next h => simp [sparseGet, h]
    · simp [sparseGet]
  | b, e :: rest, h => by
    unfold sparsePut
    split
    · next hlt =>
      have hne : e.1 ≠ k := by omega
      simp only [sparseGet, hne, if_false]
      exact sparseGet_put_self d k v h.2
    · next hge =>
      split
      · next heq =>
        split
        · next hv => rw [hv]; exact sparseGet_below d h.2 (by omega)
        · simp [sparseGet]
      · next hne =>
        split
        · next hv =>
          simp only [sparseGet, hne, if_false]
          rw [hv]; exact sparseGet_below d h.2 (by omega)
        · simp [sparseGet]

/-- A write leaves every other key alone. -/
theorem sparseGet_put_other (d : α) {k j : Nat} (v : α) (hj : j ≠ k) :
    ∀ (m : List (Nat × α)), sparseGet d (sparsePut d k v m) j = sparseGet d m j
  | [] => by
    unfold sparsePut
    split
    · rfl
    · simp [sparseGet, Ne.symm hj]
  | e :: rest => by
    unfold sparsePut
    split
    · simp only [sparseGet]
      rw [sparseGet_put_other d v hj rest]
    · split
      · next heq =>
        have hne : e.1 ≠ j := by omega
        split
        · simp [sparseGet, hne]
        · simp [sparseGet, hne, Ne.symm hj]
      · split
        · rfl
        · simp [sparseGet, Ne.symm hj]

/-- Read after write in a canonical map. -/
theorem sparseGet_put (d : α) (k j : Nat) (v : α) {m : List (Nat × α)} (h : sparseWf d m = true) :
    sparseGet d (sparsePut d k v m) j = if j = k then v else sparseGet d m j := by
  simp only [sparseWf, Bool.and_eq_true] at h
  split
  · next hj => rw [hj]; exact sparseGet_put_self d k v ((keysRise_iff_keysFrom _).1 h.1)
  · next hj => exact sparseGet_put_other d v hj m

omit [DecidableEq α] in
/-- Reading a map some of whose entries are dropped. -/
theorem sparseGet_filter (d : α) (p : Nat × α → Bool) (k : Nat) :
    ∀ {b : Nat} {m : List (Nat × α)}, keysFrom b m →
      sparseGet d (m.filter p) k = if p (k, sparseGet d m k) then sparseGet d m k else d
  | _, [], _ => by split <;> rfl
  | b, e :: rest, h => by
    rw [List.filter_cons]
    by_cases hk : e.1 = k
    · have hb : sparseGet d (rest.filter p) k = d := sparseGet_below d (keysFrom_filter p h.2) (by omega)
      have he : (k, e.2) = e := by rw [← hk]
      simp only [sparseGet, hk, if_true, he]
      split
      · simp [sparseGet, hk]
      · exact hb
    · simp only [sparseGet, hk, if_false]
      split
      · simp only [sparseGet, hk, if_false]; exact sparseGet_filter d p k h.2
      · exact sparseGet_filter d p k h.2

/-- Every entry of a tabulated map is one of the function's values, and not the default. -/
theorem mem_tabulate (d : α) (n : Nat) (f : Nat → α) (e : Nat × α) :
    e ∈ sparseTabulate d n f ↔ e.1 < n ∧ e.2 = f e.1 ∧ e.2 ≠ d := by
  unfold sparseTabulate
  rw [List.mem_filterMap]
  constructor
  · rintro ⟨k, hk, h⟩
    split at h
    · cases h
    · next hd =>
      cases h
      exact ⟨List.mem_range.1 hk, rfl, hd⟩
  · rintro ⟨hn, hf, hd⟩
    refine ⟨e.1, List.mem_range.2 hn, ?_⟩
    rw [if_neg (hf ▸ hd), ← hf]

omit [DecidableEq α] in
theorem keysFrom_append {b c : Nat} : ∀ {m l : List (Nat × α)}, keysFrom b m → (∀ e ∈ m, e.1 < c) → b ≤ c →
    keysFrom c l → keysFrom b (m ++ l)
  | [], _, _, _, hbc, hl => keysFrom_mono hbc hl
  | e :: rest, _, hm, hlt, _, hl => by
    refine ⟨hm.1, keysFrom_append hm.2 (fun x hx => hlt x (List.mem_cons_of_mem _ hx)) ?_ hl⟩
    exact hlt e (List.mem_cons_self ..)

theorem keysFrom_tabulate (d : α) (f : Nat → α) : ∀ n, keysFrom 0 (sparseTabulate d n f)
  | 0 => trivial
  | n + 1 => by
    have ih := keysFrom_tabulate d f n
    have hs : sparseTabulate d (n + 1) f
        = sparseTabulate d n f ++ (if f n = d then [] else [(n, f n)]) := by
      unfold sparseTabulate
      rw [List.range_succ, List.filterMap_append]
      congr 1
      by_cases h : f n = d <;> simp [h]
    rw [hs]
    refine keysFrom_append ih (fun e he => ((mem_tabulate d n f e).1 he).1) (Nat.zero_le n) ?_
    split
    · trivial
    · exact ⟨Nat.le_refl _, trivial⟩

/-- A tabulated map is canonical. -/
theorem sparseWf_tabulate (d : α) (n : Nat) (f : Nat → α) : sparseWf d (sparseTabulate d n f) = true := by
  simp only [sparseWf, Bool.and_eq_true, List.all_eq_true, decide_eq_true_eq]
  exact ⟨(keysRise_iff_keysFrom _).2 (keysFrom_tabulate d f n), fun e he => ((mem_tabulate d n f e).1 he).2.2⟩

omit [DecidableEq α] in
/-- A listed entry of a map with rising keys is what its key reads as. -/
theorem sparseGet_of_mem (d : α) : ∀ {b : Nat} {m : List (Nat × α)} {e : Nat × α}, keysFrom b m → e ∈ m →
    sparseGet d m e.1 = e.2
  | _, a :: rest, e, h, he => by
    rcases List.mem_cons.1 he with rfl | he
    · simp [sparseGet]
    · have : a.1 ≠ e.1 := by have := keysFrom_le_of_mem h.2 e he; omega
      simp only [sparseGet, this, if_false]
      exact sparseGet_of_mem d h.2 he

omit [DecidableEq α] in
/-- A key no entry holds reads as the default. -/
theorem sparseGet_of_not_mem (d : α) {k : Nat} : ∀ {m : List (Nat × α)}, (∀ e ∈ m, e.1 ≠ k) → sparseGet d m k = d
  | [], _ => rfl
  | e :: rest, h => by
    have he := h e (List.mem_cons_self ..)
    simp only [sparseGet, he, if_false]
    exact sparseGet_of_not_mem d fun x hx => h x (List.mem_cons_of_mem _ hx)

/-- Reading a tabulated map. -/
theorem sparseGet_tabulate (d : α) (n : Nat) (f : Nat → α) (k : Nat) :
    sparseGet d (sparseTabulate d n f) k = if k < n then f k else d := by
  split
  · next hk =>
    by_cases hd : f k = d
    · rw [hd]
      refine sparseGet_of_not_mem d fun e he hek => ?_
      have := (mem_tabulate d n f e).1 he
      exact this.2.2 (by rw [this.2.1, hek, hd])
    · exact sparseGet_of_mem (e := (k, f k)) d (keysFrom_tabulate d f n)
        ((mem_tabulate d n f _).2 ⟨hk, rfl, hd⟩)
  · next hk =>
    refine sparseGet_of_not_mem d fun e he hek => ?_
    have := (mem_tabulate d n f e).1 he
    omega

end

end Sys2Proof.Machine
end

