-- ==== Sys2Proof/Laws/Buffer.lean ====
section
/-! SUPPORT. Laws of the output buffer, the fade table and the worker pool: every operation keeps its form, and what is
read after it. -/

namespace Sys2Proof.Machine

/-! ### The output buffer -/

/-- The parts of the form of the output buffer. -/
theorem outWf_iff {P : Params} {o : List (Nat × Word)} :
    outWf P o = true ↔ sparseWf 0 o = true ∧ (∀ e ∈ o, e.1 < P.maxH * P.maxW) ∧ ∀ e ∈ o, e.2.toNat < 2 ^ 24 := by
  simp only [outWf, Bool.and_eq_true, List.all_eq_true, decide_eq_true_eq, and_assoc]

/-- A position of the raster, in its bounds. -/
theorem inRaster_iff {P : Params} {row col : Int} :
    inRaster P row col = true ↔ (0 ≤ row ∧ row < P.maxH) ∧ (0 ≤ col ∧ col < P.maxW) := by
  simp only [inRaster, indexInside, Bool.and_eq_true, decide_eq_true_eq]

/-- The key of a position of the raster lies in the buffer. -/
theorem outKey_lt {P : Params} {row col : Int} (h : inRaster P row col = true) :
    outKey P row.toNat col.toNat < P.maxH * P.maxW := by
  obtain ⟨⟨h0, h1⟩, h2, h3⟩ := inRaster_iff.1 h
  have hr : row.toNat + 1 ≤ P.maxH := by omega
  have hc : col.toNat < P.maxW := by omega
  calc outKey P row.toNat col.toNat < (row.toNat + 1) * P.maxW := by
        unfold outKey; rw [Nat.add_mul, Nat.one_mul]; omega
    _ ≤ P.maxH * P.maxW := Nat.mul_le_mul_right _ hr

/-- The row of a key. -/
theorem outKey_div {P : Params} {row col : Nat} (h : col < P.maxW) : outKey P row col / P.maxW = row := by
  unfold outKey
  rw [Nat.mul_comm, Nat.mul_add_div (by omega), Nat.div_eq_of_lt h, Nat.add_zero]

/-- The column of a key. -/
theorem outKey_mod {P : Params} {row col : Nat} (h : col < P.maxW) : outKey P row col % P.maxW = col := by
  unfold outKey
  rw [Nat.mul_comm, Nat.mul_add_mod, Nat.mod_eq_of_lt h]

/-- Two positions of the raster with one key are the same. -/
theorem outKey_inj {P : Params} {row col row' col' : Int} (h : inRaster P row col = true)
    (h' : inRaster P row' col' = true) (hk : outKey P row.toNat col.toNat = outKey P row'.toNat col'.toNat) :
    row = row' ∧ col = col' := by
  obtain ⟨⟨h0, h1⟩, h2, h3⟩ := inRaster_iff.1 h
  obtain ⟨⟨h0', h1'⟩, h2', h3'⟩ := inRaster_iff.1 h'
  have hc : col.toNat < P.maxW := by omega
  have hc' : col'.toNat < P.maxW := by omega
  have hd := congrArg (· / P.maxW) hk
  have hm := congrArg (· % P.maxW) hk
  simp only [outKey_div hc, outKey_div hc', outKey_mod hc, outKey_mod hc'] at hd hm
  omega

/-- Reading the buffer after a write. -/
theorem readOut_writeOut {P : Params} {o : List (Nat × Word)} (h : outWf P o = true) (row col row' col' : Int)
    (px : Word) :
    readOut P (writeOut P row col px o) row' col' =
      if inRaster P row col = true ∧ row' = row ∧ col' = col then px else readOut P o row' col' := by
  unfold writeOut
  by_cases hr : inRaster P row col = true
  · by_cases hp : row' = row ∧ col' = col
    · obtain ⟨rfl, rfl⟩ := hp
      have hs := (outWf_iff.1 h).1
      simp only [sparseWf, Bool.and_eq_true] at hs
      rw [if_pos hr, if_pos ⟨hr, rfl, rfl⟩, readOut, if_pos hr]
      exact sparseGet_put_self _ _ _ ((keysRise_iff_keysFrom _).1 hs.1)
    · rw [if_pos hr, if_neg (by tauto)]
      unfold readOut
      split
      · next hr' =>
        rw [sparseGet_put_other]
        intro hk
        exact hp (outKey_inj hr' hr hk)
      · rfl
  · simp [hr]

/-- An appended bit vector as a number. -/
theorem toNat_append_eq {v w : Nat} (x : BitVec v) (y : BitVec w) : (x ++ y).toNat = x.toNat * 2 ^ w + y.toNat := by
  rw [BitVec.toNat_append, ← Nat.shiftLeft_add_eq_or_of_lt y.isLt, Nat.shiftLeft_eq]

/-- A packed pixel as a number. -/
theorem pack_toNat (c : Colour) : (pack c).toNat = c.r.toNat * 65536 + c.g.toNat * 256 + c.b.toNat := by
  unfold pack
  rw [toNat_append_eq, toNat_append_eq, toNat_append_eq]
  simp
  omega

/-- A packed pixel keeps bits [31:24] at 0. -/
theorem pack_lt (c : Colour) : (pack c).toNat < 2 ^ 24 := by
  have hr := c.r.isLt; have hg := c.g.isLt; have hb := c.b.isLt
  rw [pack_toNat]; omega

/-- A write of a packed pixel keeps the form of the buffer. -/
theorem outWf_writeOut {P : Params} {o : List (Nat × Word)} (h : outWf P o = true) (row col : Int) {px : Word}
    (hpx : px.toNat < 2 ^ 24) : outWf P (writeOut P row col px o) = true := by
  unfold writeOut
  split
  · next hr =>
    rw [outWf_iff] at h ⊢
    refine ⟨sparseWf_put _ _ _ h.1, fun e he => ?_, fun e he => ?_⟩ <;>
      rcases mem_put _ _ _ e he with hm | ⟨rfl, -⟩
    · exact h.2.1 e hm
    · exact outKey_lt hr
    · exact h.2.2 e hm
    · exact hpx
  · exact h

/-- Clearing keeps the form of the buffer. -/
theorem outWf_clearOut {P : Params} {o : List (Nat × Word)} (h : outWf P o = true) (p : Nat → Nat → Bool) :
    outWf P (clearOut P p o) = true := by
  rw [outWf_iff] at h ⊢
  exact ⟨sparseWf_filter _ _ h.1, fun e he => h.2.1 e (List.mem_of_mem_filter he),
    fun e he => h.2.2 e (List.mem_of_mem_filter he)⟩

/-- The empty buffer has the form. -/
@[simp] theorem outWf_nil (P : Params) : outWf P [] = true := rfl

/-- The empty buffer reads 0. -/
@[simp] theorem readOut_nil (P : Params) (row col : Int) : readOut P [] row col = 0 := by
  simp [readOut, sparseGet]

/-- Reading the buffer after a clear. -/
theorem readOut_clearOut {P : Params} {o : List (Nat × Word)} (h : outWf P o = true) (p : Nat → Nat → Bool)
    {row col : Nat} (hr : row < P.maxH) (hc : col < P.maxW) :
    readOut P (clearOut P p o) row col = if p row col then 0 else readOut P o row col := by
  have hin : inRaster P row col = true := by
    rw [inRaster_iff]; omega
  have hs := (outWf_iff.1 h).1
  simp only [sparseWf, Bool.and_eq_true] at hs
  unfold readOut clearOut
  rw [if_pos hin, if_pos hin, sparseGet_filter _ _ _ ((keysRise_iff_keysFrom _).1 hs.1)]
  simp only [Int.toNat_natCast, outKey_div hc, outKey_mod hc]
  cases p row col <;> simp

/-! ### The fade table -/

/-- The parts of the form of the fade table. -/
theorem fadeWf_iff {P : Params} {t : List (Nat × Nat)} :
    fadeWf P t = true ↔ sparseWf 0 t = true ∧ (∀ e ∈ t, e.1 < P.maxH) ∧ ∀ e ∈ t, e.2 ≤ P.fadeFrames := by
  simp only [fadeWf, Bool.and_eq_true, List.all_eq_true, decide_eq_true_eq, and_assoc]

/-- No row of a fade table is above `FADE_FRAMES`. -/
theorem readFade_le {P : Params} {t : List (Nat × Nat)} (h : fadeWf P t = true) (row : Nat) :
    readFade t row ≤ P.fadeFrames := by
  by_cases hm : ∀ e ∈ t, e.1 ≠ row
  · rw [readFade, sparseGet_of_not_mem _ hm]; exact Nat.zero_le _
  · push Not at hm
    obtain ⟨e, he, hek⟩ := hm
    have hs := (fadeWf_iff.1 h).1
    simp only [sparseWf, Bool.and_eq_true] at hs
    rw [readFade, ← hek, sparseGet_of_mem _ ((keysRise_iff_keysFrom _).1 hs.1) he]
    exact (fadeWf_iff.1 h).2.2 e he

/-- A tabulated fade table has the form when every row is within `FADE_FRAMES`. -/
theorem fadeWf_fadeTable {P : Params} {f : Nat → Nat} (h : ∀ r, f r ≤ P.fadeFrames) :
    fadeWf P (fadeTable P f) = true := by
  rw [fadeWf_iff]
  refine ⟨sparseWf_tabulate _ _ _, fun e he => ((mem_tabulate _ _ _ e).1 he).1, fun e he => ?_⟩
  rw [((mem_tabulate _ _ _ e).1 he).2.1]; exact h _

/-- Reading a tabulated fade table. -/
theorem readFade_fadeTable (P : Params) (f : Nat → Nat) {row : Nat} (h : row < P.maxH) :
    readFade (fadeTable P f) row = f row := by
  rw [readFade, fadeTable, sparseGet_tabulate, if_pos h]

/-- The empty fade table has the form. -/
@[simp] theorem fadeWf_nil (P : Params) : fadeWf P [] = true := rfl

/-- The empty fade table reads 0. -/
@[simp] theorem readFade_nil (row : Nat) : readFade [] row = 0 := rfl

/-! ### The workers -/

/-- Replacing a worker keeps the form. -/
theorem workersWf_putWorker {P : Params} {ws : List (Nat × Worker)} (h : workersWf P ws = true) (k : Nat)
    (wk : Worker) : workersWf P (putWorker P k wk ws) = true := sparseWf_put _ _ _ h

/-- A worker after one is replaced. -/
theorem getWorker_putWorker {P : Params} {ws : List (Nat × Worker)} (h : workersWf P ws = true) (k j : Nat)
    (wk : Worker) : getWorker P (putWorker P k wk ws) j = if j = k then wk else getWorker P ws j :=
  sparseGet_put _ _ _ _ h

/-- Every entry after a worker is replaced is an old one or the new one. -/
theorem mem_putWorker {P : Params} {ws : List (Nat × Worker)} (k : Nat) (wk : Worker) :
    ∀ e ∈ putWorker P k wk ws, e ∈ ws ∨ e.2 = wk := by
  intro e he
  rcases mem_put _ _ _ e he with h | ⟨rfl, -⟩
  · exact .inl h
  · exact .inr rfl

/-- A worker is one of the list, or fresh. -/
theorem getWorker_mem_or_fresh (P : Params) : ∀ (ws : List (Nat × Worker)) (k : Nat),
    (∃ e ∈ ws, e.2 = getWorker P ws k) ∨ getWorker P ws k = freshWorker P
  | [], _ => .inr rfl
  | e :: rest, k => by
    by_cases h : e.1 = k
    · exact .inl ⟨e, List.mem_cons_self .., by simp [getWorker, sparseGet, h]⟩
    · have : getWorker P (e :: rest) k = getWorker P rest k := by simp [getWorker, sparseGet, h]
      rw [this]
      exact (getWorker_mem_or_fresh P rest k).imp (fun ⟨x, hx, hv⟩ => ⟨x, List.mem_cons_of_mem _ hx, hv⟩) id

/-- Every cache of an invalidated pool is empty. -/
theorem mem_invalidateCaches {P : Params} {ws : List (Nat × Worker)} :
    ∀ e ∈ invalidateCaches P ws, e.2.caches = {} ∧ e.2.seed ≠ P.seedInit := by
  intro e he
  unfold invalidateCaches at he
  obtain ⟨a, -, ha⟩ := List.mem_filterMap.1 he
  split at ha
  · cases ha
  · next hs => cases ha; exact ⟨rfl, hs⟩

theorem keysFrom_invalidateCaches {P : Params} : ∀ {b : Nat} {ws : List (Nat × Worker)}, keysFrom b ws →
    keysFrom b (invalidateCaches P ws)
  | _, [], _ => trivial
  | b, e :: rest, h => by
    have ih := keysFrom_invalidateCaches (P := P) h.2
    unfold invalidateCaches at ih ⊢
    rw [List.filterMap_cons]
    by_cases hs : e.2.seed = P.seedInit
    · simp only [hs, if_true]
      exact keysFrom_mono (by have := h.1; omega) ih
    · simp only [hs, if_false]
      exact ⟨h.1, ih⟩

/-- Invalidating every cache keeps the form. -/
theorem workersWf_invalidateCaches {P : Params} {ws : List (Nat × Worker)} (h : workersWf P ws = true) :
    workersWf P (invalidateCaches P ws) = true := by
  simp only [workersWf, sparseWf, Bool.and_eq_true, List.all_eq_true, decide_eq_true_eq] at h ⊢
  refine ⟨(keysRise_iff_keysFrom _).2 (keysFrom_invalidateCaches ((keysRise_iff_keysFrom _).1 h.1)), fun e he hf => ?_⟩
  exact (mem_invalidateCaches e he).2 (by rw [hf]; rfl)

/-- The empty pool has the form. -/
@[simp] theorem workersWf_nil (P : Params) : workersWf P [] = true := rfl

/-! ### The form of the whole state -/

/-- The four parts of the form of a state. -/
theorem State.wf_iff {s : State} :
    s.wf = true ↔ s.memory.wf s.params.rdramSize = true ∧ outWf s.params s.out = true ∧
      fadeWf s.params s.pipe.fade = true ∧ workersWf s.params s.workers = true := by
  simp only [State.wf, Bool.and_eq_true, and_assoc]

end Sys2Proof.Machine
end

