-- ==== Sys2Proof/Laws/Cache.lean ====
section
/-! SUPPORT. Transparency of the scanline caches, from one lookup up to one pixel (`45_scanline_sequencer_cache.md`
R353): a worker whose caches hold only values computed afresh gives the cache-free pixel, and goes on holding only
such values. -/

namespace Sys2Proof.Machine

/-- An empty cache holds nothing stale. -/
@[simp] theorem cacheHolds_empty (f : Int → Int → FetchState → Sample) : cacheHolds f {} = true := rfl

/-- A hit in a cache that holds only fresh values is the fresh value. -/
theorem cacheHit_holds {f : Int → Int → FetchState → Sample} {c : LineCache} (h : cacheHolds f c = true)
    {row col : Int} {fs : FetchState} {v : Sample} (hv : cacheHit c row col fs = some v) : v = f row col fs := by
  unfold cacheHit at hv
  unfold cacheHolds at h
  cases hk : c.marker with
  | none => simp [hk] at hv
  | some k =>
    simp only [hk] at hv h
    split at hv
    · next hc =>
      obtain ⟨e, he, rfl⟩ := Option.map_eq_some_iff.1 hv
      have hm := List.mem_of_find?_eq_some he
      have hcol := List.find?_some he
      simp only [beq_iff_eq] at hcol
      rw [List.all_eq_true] at h
      have := h e hm
      simp only [decide_eq_true_eq] at this
      rw [this, hcol, hc.1, hc.2.1]
    · cases hv

/-- A fill with the fresh value keeps a cache holding only fresh values. -/
theorem cacheFill_holds {f : Int → Int → FetchState → Sample} {c : LineCache} (h : cacheHolds f c = true)
    (depth : Nat) (row col : Int) (fs : FetchState) :
    cacheHolds f (cacheFill depth c row col fs (f row col fs)) = true := by
  unfold cacheFill
  cases hk : c.marker with
  | none => simp [cacheHolds]
  | some k =>
    simp only
    split
    · next hc =>
      obtain ⟨rfl, rfl, rfl⟩ := hc
      simp only [cacheHolds, hk, List.all_eq_true, decide_eq_true_eq] at h
      simp only [cacheHolds, List.all_eq_true, List.mem_append, decide_eq_true_eq]
      intro e he
      rcases he with he | he
      · exact h e (List.mem_of_mem_filter he)
      · rw [List.mem_singleton.1 he]
    · simp [cacheHolds]

/-- A lookup gives the fresh value and keeps the cache holding only fresh values. -/
theorem cacheLookup_holds {f : Int → Int → FetchState → Sample} {c : LineCache} (h : cacheHolds f c = true)
    (depth : Nat) (row col : Int) (fs : FetchState) :
    (cacheLookup depth c row col fs (f row col fs)).1 = f row col fs ∧
      cacheHolds f (cacheLookup depth c row col fs (f row col fs)).2 = true := by
  unfold cacheLookup
  cases hh : cacheHit c row col fs with
  | some v => exact ⟨cacheHit_holds h hh, h⟩
  | none => exact ⟨rfl, cacheFill_holds h depth row col fs⟩

variable (P : Params) (m : Memory) (C : FrameConfig)

/-- `A` through a cache of resolved samples. -/
theorem cachedResolved_holds {a : LineCache} (h : cacheHolds (resolvedSample P m C) a = true) (row col : Int)
    (fs : FetchState) :
    (cachedResolved P m C a row col fs).1 = resolvedSample P m C row col fs ∧
      cacheHolds (resolvedSample P m C) (cachedResolved P m C a row col fs).2 = true :=
  cacheLookup_holds h _ row col fs

/-- `D` through a cache of divot outputs over a cache of resolved samples. -/
theorem cachedDivot_holds {d a : LineCache} (hd : cacheHolds (divotSample P m C) d = true)
    (ha : cacheHolds (resolvedSample P m C) a = true) (row col : Int) (fs : FetchState) :
    (cachedDivot P m C d a row col fs).1 = divotSample P m C row col fs ∧
      cacheHolds (divotSample P m C) (cachedDivot P m C d a row col fs).2.1 = true ∧
      cacheHolds (resolvedSample P m C) (cachedDivot P m C d a row col fs).2.2 = true := by
  unfold cachedDivot
  cases hh : cacheHit d row col fs with
  | some v => exact ⟨cacheHit_holds hd hh, hd, ha⟩
  | none =>
    simp only
    split
    · next hen =>
      obtain ⟨l1, l2⟩ := cachedResolved_holds P m C ha row (col - 1) fs
      obtain ⟨c1, c2⟩ := cachedResolved_holds P m C l2 row col fs
      obtain ⟨r1, r2⟩ := cachedResolved_holds P m C c2 row (col + 1) fs
      have hv : divotSample P m C row col fs = divot
          (cachedResolved P m C (cachedResolved P m C a row (col - 1) fs).2 row col fs).1
          (cachedResolved P m C a row (col - 1) fs).1
          (cachedResolved P m C
            (cachedResolved P m C (cachedResolved P m C a row (col - 1) fs).2 row col fs).2 row (col + 1) fs).1 := by
        rw [l1, c1, r1]; simp [divotSample, hen]
      simp only [← hv]
      exact ⟨trivial, cacheFill_holds hd _ row col fs, r2⟩
    · next hen =>
      obtain ⟨c1, c2⟩ := cachedResolved_holds P m C ha row col fs
      have hv : divotSample P m C row col fs = (cachedResolved P m C a row col fs).1 := by
        rw [c1]; simp [divotSample, hen]
      simp only [← hv]
      exact ⟨trivial, cacheFill_holds hd _ row col fs, c2⟩

/-- The four caches of a worker, one by one. -/
theorem workerHolds_iff {k : WorkerCaches} :
    workerHolds P m C k = true ↔
      cacheHolds (resolvedSample P m C) k.cur = true ∧ cacheHolds (resolvedSample P m C) k.next = true ∧
        cacheHolds (divotSample P m C) k.dcur = true ∧ cacheHolds (divotSample P m C) k.dnext = true := by
  simp only [workerHolds, Bool.and_eq_true, and_assoc]

/-- Empty caches hold nothing stale. -/
@[simp] theorem workerHolds_empty : workerHolds P m C {} = true := rfl

/-- A sample of the current row. -/
theorem currentSample_holds {k : WorkerCaches} (h : workerHolds P m C k = true) (row col : Int) :
    (currentSample P m C k row col).1 = divotSample P m C row col .fs0 ∧
      workerHolds P m C (currentSample P m C k row col).2 = true := by
  obtain ⟨h1, h2, h3, h4⟩ := (workerHolds_iff P m C).1 h
  obtain ⟨r1, r2, r3⟩ := cachedDivot_holds P m C h3 h1 row col .fs0
  exact ⟨r1, (workerHolds_iff P m C).2 ⟨r3, h2, r2, h4⟩⟩

/-- A sample of the next row. -/
theorem nextSample_holds {k : WorkerCaches} (h : workerHolds P m C k = true) (row col : Int) (fs : FetchState) :
    (nextSample P m C k row col fs).1 = divotSample P m C row col fs ∧
      workerHolds P m C (nextSample P m C k row col fs).2 = true := by
  obtain ⟨h1, h2, h3, h4⟩ := (workerHolds_iff P m C).1 h
  obtain ⟨r1, r2, r3⟩ := cachedDivot_holds P m C h4 h2 row col fs
  exact ⟨r1, (workerHolds_iff P m C).2 ⟨h1, r3, h3, r2⟩⟩

/-- The scaled sample of a pixel. -/
theorem cachedScaled_holds {k : WorkerCaches} (h : workerHolds P m C k = true) (y i : Int) :
    (cachedScaled P m C k y i).1 = scaledSample P m C y i ∧
      workerHolds P m C (cachedScaled P m C k y i).2 = true := by
  unfold cachedScaled scaledSample
  simp only
  obtain ⟨a1, a2⟩ := currentSample_holds P m C h (srow C y) (scol C i)
  split
  · obtain ⟨b1, b2⟩ := currentSample_holds P m C a2 (srow C y) (scol C i + 1)
    obtain ⟨c1, c2⟩ := nextSample_holds P m C b2 (srow C y + 1) (scol C i) (fetchStateOf P C y)
    obtain ⟨d1, d2⟩ := nextSample_holds P m C c2 (srow C y + 1) (scol C i + 1) (fetchStateOf P C y)
    exact ⟨by rw [a1, b1, c1, d1], d2⟩
  · exact ⟨a1, a2⟩

/-- A pixel computed by a worker is the cache-free pixel, and the worker's seed moves as it does there. -/
theorem cachedPixel_holds (draws y i : Nat) {wk : Worker} (h : workerHolds P m C wk.caches = true) :
    (cachedPixel P m C draws y i wk).1 = (pixelDirect P m C draws y i wk.seed).1 ∧
      (cachedPixel P m C draws y i wk).2.seed = (pixelDirect P m C draws y i wk.seed).2 ∧
      workerHolds P m C (cachedPixel P m C draws y i wk).2.caches = true := by
  unfold cachedPixel pixelDirect
  split
  · exact ⟨rfl, rfl, h⟩
  · obtain ⟨a1, a2⟩ := cachedScaled_holds P m C h y i
    simp only [a1, scaledColour]
    exact ⟨trivial, trivial, a2⟩

/-- The promotion at the start of a scanline keeps the caches, when stale promotion is off. -/
theorem promote_holds {k : WorkerCaches} (h : workerHolds P m C k = true) (hs : P.cachePromoteStale = false)
    (row : Int) : workerHolds P m C (promote P row k) = true := by
  obtain ⟨-, h2, -, h4⟩ := (workerHolds_iff P m C).1 h
  have key : ∀ {f : Int → Int → FetchState → Sample} {c : LineCache}, cacheHolds f c = true →
      cacheHolds f (if promotes P c row then asCurrent c else {}) = true := by
    intro f c hc
    split
    · next hp =>
      unfold promotes at hp
      unfold cacheHolds at hc ⊢
      cases hk : c.marker with
      | none => simp [hk] at hp
      | some m =>
        simp only [hk, hs, Bool.or_false, Bool.and_eq_true, decide_eq_true_eq] at hp hc
        simp only [asCurrent, hk, Option.map_some]
        rw [hp.2] at hc
        exact hc
    · rfl
  exact (workerHolds_iff P m C).2 ⟨key h2, rfl, key h4, rfl⟩

end Sys2Proof.Machine
end

