-- ==== Sys2Proof/Laws/State.lean ====
section
/-! SUPPORT. One lemma per field per named update of the state: what the update sets, and that it leaves every other field
as it was. -/

namespace Sys2Proof.Machine

/-! ### `State.withRequests` -/

@[simp] theorem State.withRequests_params (s : State) (rs : List Request) : (s.withRequests rs).params = s.params := rfl
@[simp] theorem State.withRequests_requests (s : State) (rs : List Request) : (s.withRequests rs).requests = rs := rfl
@[simp] theorem State.withRequests_slots (s : State) (rs : List Request) : (s.withRequests rs).slots = s.slots := rfl
@[simp] theorem State.withRequests_config (s : State) (rs : List Request) : (s.withRequests rs).config = s.config := rfl
@[simp] theorem State.withRequests_workerFailures (s : State) (rs : List Request) : (s.withRequests rs).workerFailures = s.workerFailures := rfl
@[simp] theorem State.withRequests_memory (s : State) (rs : List Request) : (s.withRequests rs).memory = s.memory := rfl
@[simp] theorem State.withRequests_scan (s : State) (rs : List Request) : (s.withRequests rs).scan = s.scan := rfl
@[simp] theorem State.withRequests_sampled (s : State) (rs : List Request) : (s.withRequests rs).sampled = s.sampled := rfl
@[simp] theorem State.withRequests_reg (s : State) (rs : List Request) : (s.withRequests rs).reg = s.reg := rfl
@[simp] theorem State.withRequests_frame (s : State) (rs : List Request) : (s.withRequests rs).frame = s.frame := rfl
@[simp] theorem State.withRequests_pipe (s : State) (rs : List Request) : (s.withRequests rs).pipe = s.pipe := rfl
@[simp] theorem State.withRequests_out (s : State) (rs : List Request) : (s.withRequests rs).out = s.out := rfl
@[simp] theorem State.withRequests_latch (s : State) (rs : List Request) : (s.withRequests rs).latch = s.latch := rfl
@[simp] theorem State.withRequests_pool (s : State) (rs : List Request) : (s.withRequests rs).pool = s.pool := rfl
@[simp] theorem State.withRequests_workers (s : State) (rs : List Request) : (s.withRequests rs).workers = s.workers := rfl
@[simp] theorem State.withRequests_log (s : State) (rs : List Request) : (s.withRequests rs).log = s.log := rfl
@[simp] theorem State.withRequests_fatal (s : State) (rs : List Request) : (s.withRequests rs).fatal = s.fatal := rfl
@[simp] theorem State.withRequests_presented (s : State) (rs : List Request) : (s.withRequests rs).presented = s.presented := rfl
@[simp] theorem State.withRequests_result (s : State) (rs : List Request) : (s.withRequests rs).result = s.result := rfl
@[simp] theorem State.withRequests_handedOver (s : State) (rs : List Request) : (s.withRequests rs).handedOver = s.handedOver := rfl
@[simp] theorem State.withRequests_draws (s : State) (rs : List Request) : (s.withRequests rs).draws = s.draws := rfl

/-! ### `State.withSlots` -/

@[simp] theorem State.withSlots_params (s : State) (r : Regs) : (s.withSlots r).params = s.params := rfl
@[simp] theorem State.withSlots_requests (s : State) (r : Regs) : (s.withSlots r).requests = s.requests := rfl
@[simp] theorem State.withSlots_slots (s : State) (r : Regs) : (s.withSlots r).slots = r := rfl
@[simp] theorem State.withSlots_config (s : State) (r : Regs) : (s.withSlots r).config = s.config := rfl
@[simp] theorem State.withSlots_workerFailures (s : State) (r : Regs) : (s.withSlots r).workerFailures = s.workerFailures := rfl
@[simp] theorem State.withSlots_memory (s : State) (r : Regs) : (s.withSlots r).memory = s.memory := rfl
@[simp] theorem State.withSlots_scan (s : State) (r : Regs) : (s.withSlots r).scan = s.scan := rfl
@[simp] theorem State.withSlots_sampled (s : State) (r : Regs) : (s.withSlots r).sampled = s.sampled := rfl
@[simp] theorem State.withSlots_reg (s : State) (r : Regs) : (s.withSlots r).reg = s.reg := rfl
@[simp] theorem State.withSlots_frame (s : State) (r : Regs) : (s.withSlots r).frame = s.frame := rfl
@[simp] theorem State.withSlots_pipe (s : State) (r : Regs) : (s.withSlots r).pipe = s.pipe := rfl
@[simp] theorem State.withSlots_out (s : State) (r : Regs) : (s.withSlots r).out = s.out := rfl
@[simp] theorem State.withSlots_latch (s : State) (r : Regs) : (s.withSlots r).latch = s.latch := rfl
@[simp] theorem State.withSlots_pool (s : State) (r : Regs) : (s.withSlots r).pool = s.pool := rfl
@[simp] theorem State.withSlots_workers (s : State) (r : Regs) : (s.withSlots r).workers = s.workers := rfl
@[simp] theorem State.withSlots_log (s : State) (r : Regs) : (s.withSlots r).log = s.log := rfl
@[simp] theorem State.withSlots_fatal (s : State) (r : Regs) : (s.withSlots r).fatal = s.fatal := rfl
@[simp] theorem State.withSlots_presented (s : State) (r : Regs) : (s.withSlots r).presented = s.presented := rfl
@[simp] theorem State.withSlots_result (s : State) (r : Regs) : (s.withSlots r).result = s.result := rfl
@[simp] theorem State.withSlots_handedOver (s : State) (r : Regs) : (s.withSlots r).handedOver = s.handedOver := rfl
@[simp] theorem State.withSlots_draws (s : State) (r : Regs) : (s.withSlots r).draws = s.draws := rfl

/-! ### `State.withConfig` -/

@[simp] theorem State.withConfig_params (s : State) (c : HostConfig) : (s.withConfig c).params = s.params := rfl
@[simp] theorem State.withConfig_requests (s : State) (c : HostConfig) : (s.withConfig c).requests = s.requests := rfl
@[simp] theorem State.withConfig_slots (s : State) (c : HostConfig) : (s.withConfig c).slots = s.slots := rfl
@[simp] theorem State.withConfig_config (s : State) (c : HostConfig) : (s.withConfig c).config = c := rfl
@[simp] theorem State.withConfig_workerFailures (s : State) (c : HostConfig) : (s.withConfig c).workerFailures = s.workerFailures := rfl
@[simp] theorem State.withConfig_memory (s : State) (c : HostConfig) : (s.withConfig c).memory = s.memory := rfl
@[simp] theorem State.withConfig_scan (s : State) (c : HostConfig) : (s.withConfig c).scan = s.scan := rfl
@[simp] theorem State.withConfig_sampled (s : State) (c : HostConfig) : (s.withConfig c).sampled = s.sampled := rfl
@[simp] theorem State.withConfig_reg (s : State) (c : HostConfig) : (s.withConfig c).reg = s.reg := rfl
@[simp] theorem State.withConfig_frame (s : State) (c : HostConfig) : (s.withConfig c).frame = s.frame := rfl
@[simp] theorem State.withConfig_pipe (s : State) (c : HostConfig) : (s.withConfig c).pipe = s.pipe := rfl
@[simp] theorem State.withConfig_out (s : State) (c : HostConfig) : (s.withConfig c).out = s.out := rfl
@[simp] theorem State.withConfig_latch (s : State) (c : HostConfig) : (s.withConfig c).latch = s.latch := rfl
@[simp] theorem State.withConfig_pool (s : State) (c : HostConfig) : (s.withConfig c).pool = s.pool := rfl
@[simp] theorem State.withConfig_workers (s : State) (c : HostConfig) : (s.withConfig c).workers = s.workers := rfl
@[simp] theorem State.withConfig_log (s : State) (c : HostConfig) : (s.withConfig c).log = s.log := rfl
@[simp] theorem State.withConfig_fatal (s : State) (c : HostConfig) : (s.withConfig c).fatal = s.fatal := rfl
@[simp] theorem State.withConfig_presented (s : State) (c : HostConfig) : (s.withConfig c).presented = s.presented := rfl
@[simp] theorem State.withConfig_result (s : State) (c : HostConfig) : (s.withConfig c).result = s.result := rfl
@[simp] theorem State.withConfig_handedOver (s : State) (c : HostConfig) : (s.withConfig c).handedOver = s.handedOver := rfl
@[simp] theorem State.withConfig_draws (s : State) (c : HostConfig) : (s.withConfig c).draws = s.draws := rfl

/-! ### `State.withMemory` -/

@[simp] theorem State.withMemory_params (s : State) (m : Memory) : (s.withMemory m).params = s.params := rfl
@[simp] theorem State.withMemory_requests (s : State) (m : Memory) : (s.withMemory m).requests = s.requests := rfl
@[simp] theorem State.withMemory_slots (s : State) (m : Memory) : (s.withMemory m).slots = s.slots := rfl
@[simp] theorem State.withMemory_config (s : State) (m : Memory) : (s.withMemory m).config = s.config := rfl
@[simp] theorem State.withMemory_workerFailures (s : State) (m : Memory) : (s.withMemory m).workerFailures = s.workerFailures := rfl
@[simp] theorem State.withMemory_memory (s : State) (m : Memory) : (s.withMemory m).memory = m := rfl
@[simp] theorem State.withMemory_scan (s : State) (m : Memory) : (s.withMemory m).scan = s.scan := rfl
@[simp] theorem State.withMemory_sampled (s : State) (m : Memory) : (s.withMemory m).sampled = s.sampled := rfl
@[simp] theorem State.withMemory_reg (s : State) (m : Memory) : (s.withMemory m).reg = s.reg := rfl
@[simp] theorem State.withMemory_frame (s : State) (m : Memory) : (s.withMemory m).frame = s.frame := rfl
@[simp] theorem State.withMemory_pipe (s : State) (m : Memory) : (s.withMemory m).pipe = s.pipe := rfl
@[simp] theorem State.withMemory_out (s : State) (m : Memory) : (s.withMemory m).out = s.out := rfl
@[simp] theorem State.withMemory_latch (s : State) (m : Memory) : (s.withMemory m).latch = s.latch := rfl
@[simp] theorem State.withMemory_pool (s : State) (m : Memory) : (s.withMemory m).pool = s.pool := rfl
@[simp] theorem State.withMemory_workers (s : State) (m : Memory) : (s.withMemory m).workers = s.workers := rfl
@[simp] theorem State.withMemory_log (s : State) (m : Memory) : (s.withMemory m).log = s.log := rfl
@[simp] theorem State.withMemory_fatal (s : State) (m : Memory) : (s.withMemory m).fatal = s.fatal := rfl
@[simp] theorem State.withMemory_presented (s : State) (m : Memory) : (s.withMemory m).presented = s.presented := rfl
@[simp] theorem State.withMemory_result (s : State) (m : Memory) : (s.withMemory m).result = s.result := rfl
@[simp] theorem State.withMemory_handedOver (s : State) (m : Memory) : (s.withMemory m).handedOver = s.handedOver := rfl
@[simp] theorem State.withMemory_draws (s : State) (m : Memory) : (s.withMemory m).draws = s.draws := rfl

/-! ### `State.withScan` -/

@[simp] theorem State.withScan_params (s : State) (p : ScanPosition) : (s.withScan p).params = s.params := rfl
@[simp] theorem State.withScan_requests (s : State) (p : ScanPosition) : (s.withScan p).requests = s.requests := rfl
@[simp] theorem State.withScan_slots (s : State) (p : ScanPosition) : (s.withScan p).slots = s.slots := rfl
@[simp] theorem State.withScan_config (s : State) (p : ScanPosition) : (s.withScan p).config = s.config := rfl
@[simp] theorem State.withScan_workerFailures (s : State) (p : ScanPosition) : (s.withScan p).workerFailures = s.workerFailures := rfl
@[simp] theorem State.withScan_memory (s : State) (p : ScanPosition) : (s.withScan p).memory = s.memory := rfl
@[simp] theorem State.withScan_scan (s : State) (p : ScanPosition) : (s.withScan p).scan = p := rfl
@[simp] theorem State.withScan_sampled (s : State) (p : ScanPosition) : (s.withScan p).sampled = s.sampled := rfl
@[simp] theorem State.withScan_reg (s : State) (p : ScanPosition) : (s.withScan p).reg = s.reg := rfl
@[simp] theorem State.withScan_frame (s : State) (p : ScanPosition) : (s.withScan p).frame = s.frame := rfl
@[simp] theorem State.withScan_pipe (s : State) (p : ScanPosition) : (s.withScan p).pipe = s.pipe := rfl
@[simp] theorem State.withScan_out (s : State) (p : ScanPosition) : (s.withScan p).out = s.out := rfl
@[simp] theorem State.withScan_latch (s : State) (p : ScanPosition) : (s.withScan p).latch = s.latch := rfl
@[simp] theorem State.withScan_pool (s : State) (p : ScanPosition) : (s.withScan p).pool = s.pool := rfl
@[simp] theorem State.withScan_workers (s : State) (p : ScanPosition) : (s.withScan p).workers = s.workers := rfl
@[simp] theorem State.withScan_log (s : State) (p : ScanPosition) : (s.withScan p).log = s.log := rfl
@[simp] theorem State.withScan_fatal (s : State) (p : ScanPosition) : (s.withScan p).fatal = s.fatal := rfl
@[simp] theorem State.withScan_presented (s : State) (p : ScanPosition) : (s.withScan p).presented = s.presented := rfl
@[simp] theorem State.withScan_result (s : State) (p : ScanPosition) : (s.withScan p).result = s.result := rfl
@[simp] theorem State.withScan_handedOver (s : State) (p : ScanPosition) : (s.withScan p).handedOver = s.handedOver := rfl
@[simp] theorem State.withScan_draws (s : State) (p : ScanPosition) : (s.withScan p).draws = s.draws := rfl

/-! ### `State.withPhase` -/

@[simp] theorem State.withPhase_params (s : State) (p : Phase) : (s.withPhase p).params = s.params := rfl
@[simp] theorem State.withPhase_requests (s : State) (p : Phase) : (s.withPhase p).requests = s.requests := rfl
@[simp] theorem State.withPhase_slots (s : State) (p : Phase) : (s.withPhase p).slots = s.slots := rfl
@[simp] theorem State.withPhase_config (s : State) (p : Phase) : (s.withPhase p).config = s.config := rfl
@[simp] theorem State.withPhase_workerFailures (s : State) (p : Phase) : (s.withPhase p).workerFailures = s.workerFailures := rfl
@[simp] theorem State.withPhase_memory (s : State) (p : Phase) : (s.withPhase p).memory = s.memory := rfl
@[simp] theorem State.withPhase_scan (s : State) (p : Phase) : (s.withPhase p).scan = { s.scan with phase := p } := rfl
@[simp] theorem State.withPhase_sampled (s : State) (p : Phase) : (s.withPhase p).sampled = s.sampled := rfl
@[simp] theorem State.withPhase_reg (s : State) (p : Phase) : (s.withPhase p).reg = s.reg := rfl
@[simp] theorem State.withPhase_frame (s : State) (p : Phase) : (s.withPhase p).frame = s.frame := rfl
@[simp] theorem State.withPhase_pipe (s : State) (p : Phase) : (s.withPhase p).pipe = s.pipe := rfl
@[simp] theorem State.withPhase_out (s : State) (p : Phase) : (s.withPhase p).out = s.out := rfl
@[simp] theorem State.withPhase_latch (s : State) (p : Phase) : (s.withPhase p).latch = s.latch := rfl
@[simp] theorem State.withPhase_pool (s : State) (p : Phase) : (s.withPhase p).pool = s.pool := rfl
@[simp] theorem State.withPhase_workers (s : State) (p : Phase) : (s.withPhase p).workers = s.workers := rfl
@[simp] theorem State.withPhase_log (s : State) (p : Phase) : (s.withPhase p).log = s.log := rfl
@[simp] theorem State.withPhase_fatal (s : State) (p : Phase) : (s.withPhase p).fatal = s.fatal := rfl
@[simp] theorem State.withPhase_presented (s : State) (p : Phase) : (s.withPhase p).presented = s.presented := rfl
@[simp] theorem State.withPhase_result (s : State) (p : Phase) : (s.withPhase p).result = s.result := rfl
@[simp] theorem State.withPhase_handedOver (s : State) (p : Phase) : (s.withPhase p).handedOver = s.handedOver := rfl
@[simp] theorem State.withPhase_draws (s : State) (p : Phase) : (s.withPhase p).draws = s.draws := rfl

/-! ### `State.withSampled` -/

@[simp] theorem State.withSampled_params (s : State) (c : HostConfig) : (s.withSampled c).params = s.params := rfl
@[simp] theorem State.withSampled_requests (s : State) (c : HostConfig) : (s.withSampled c).requests = s.requests := rfl
@[simp] theorem State.withSampled_slots (s : State) (c : HostConfig) : (s.withSampled c).slots = s.slots := rfl
@[simp] theorem State.withSampled_config (s : State) (c : HostConfig) : (s.withSampled c).config = s.config := rfl
@[simp] theorem State.withSampled_workerFailures (s : State) (c : HostConfig) : (s.withSampled c).workerFailures = s.workerFailures := rfl
@[simp] theorem State.withSampled_memory (s : State) (c : HostConfig) : (s.withSampled c).memory = s.memory := rfl
@[simp] theorem State.withSampled_scan (s : State) (c : HostConfig) : (s.withSampled c).scan = s.scan := rfl
@[simp] theorem State.withSampled_sampled (s : State) (c : HostConfig) : (s.withSampled c).sampled = c := rfl
@[simp] theorem State.withSampled_reg (s : State) (c : HostConfig) : (s.withSampled c).reg = s.reg := rfl
@[simp] theorem State.withSampled_frame (s : State) (c : HostConfig) : (s.withSampled c).frame = s.frame := rfl
@[simp] theorem State.withSampled_pipe (s : State) (c : HostConfig) : (s.withSampled c).pipe = s.pipe := rfl
@[simp] theorem State.withSampled_out (s : State) (c : HostConfig) : (s.withSampled c).out = s.out := rfl
@[simp] theorem State.withSampled_latch (s : State) (c : HostConfig) : (s.withSampled c).latch = s.latch := rfl
@[simp] theorem State.withSampled_pool (s : State) (c : HostConfig) : (s.withSampled c).pool = s.pool := rfl
@[simp] theorem State.withSampled_workers (s : State) (c : HostConfig) : (s.withSampled c).workers = s.workers := rfl
@[simp] theorem State.withSampled_log (s : State) (c : HostConfig) : (s.withSampled c).log = s.log := rfl
@[simp] theorem State.withSampled_fatal (s : State) (c : HostConfig) : (s.withSampled c).fatal = s.fatal := rfl
@[simp] theorem State.withSampled_presented (s : State) (c : HostConfig) : (s.withSampled c).presented = s.presented := rfl
@[simp] theorem State.withSampled_result (s : State) (c : HostConfig) : (s.withSampled c).result = s.result := rfl
@[simp] theorem State.withSampled_handedOver (s : State) (c : HostConfig) : (s.withSampled c).handedOver = s.handedOver := rfl
@[simp] theorem State.withSampled_draws (s : State) (c : HostConfig) : (s.withSampled c).draws = s.draws := rfl

/-! ### `State.withReg` -/

@[simp] theorem State.withReg_params (s : State) (r : Regs) : (s.withReg r).params = s.params := rfl
@[simp] theorem State.withReg_requests (s : State) (r : Regs) : (s.withReg r).requests = s.requests := rfl
@[simp] theorem State.withReg_slots (s : State) (r : Regs) : (s.withReg r).slots = s.slots := rfl
@[simp] theorem State.withReg_config (s : State) (r : Regs) : (s.withReg r).config = s.config := rfl
@[simp] theorem State.withReg_workerFailures (s : State) (r : Regs) : (s.withReg r).workerFailures = s.workerFailures := rfl
@[simp] theorem State.withReg_memory (s : State) (r : Regs) : (s.withReg r).memory = s.memory := rfl
@[simp] theorem State.withReg_scan (s : State) (r : Regs) : (s.withReg r).scan = s.scan := rfl
@[simp] theorem State.withReg_sampled (s : State) (r : Regs) : (s.withReg r).sampled = s.sampled := rfl
@[simp] theorem State.withReg_reg (s : State) (r : Regs) : (s.withReg r).reg = r := rfl
@[simp] theorem State.withReg_frame (s : State) (r : Regs) : (s.withReg r).frame = s.frame := rfl
@[simp] theorem State.withReg_pipe (s : State) (r : Regs) : (s.withReg r).pipe = s.pipe := rfl
@[simp] theorem State.withReg_out (s : State) (r : Regs) : (s.withReg r).out = s.out := rfl
@[simp] theorem State.withReg_latch (s : State) (r : Regs) : (s.withReg r).latch = s.latch := rfl
@[simp] theorem State.withReg_pool (s : State) (r : Regs) : (s.withReg r).pool = s.pool := rfl
@[simp] theorem State.withReg_workers (s : State) (r : Regs) : (s.withReg r).workers = s.workers := rfl
@[simp] theorem State.withReg_log (s : State) (r : Regs) : (s.withReg r).log = s.log := rfl
@[simp] theorem State.withReg_fatal (s : State) (r : Regs) : (s.withReg r).fatal = s.fatal := rfl
@[simp] theorem State.withReg_presented (s : State) (r : Regs) : (s.withReg r).presented = s.presented := rfl
@[simp] theorem State.withReg_result (s : State) (r : Regs) : (s.withReg r).result = s.result := rfl
@[simp] theorem State.withReg_handedOver (s : State) (r : Regs) : (s.withReg r).handedOver = s.handedOver := rfl
@[simp] theorem State.withReg_draws (s : State) (r : Regs) : (s.withReg r).draws = s.draws := rfl

/-! ### `State.withFrame` -/

@[simp] theorem State.withFrame_params (s : State) (c : FrameConfig) : (s.withFrame c).params = s.params := rfl
@[simp] theorem State.withFrame_requests (s : State) (c : FrameConfig) : (s.withFrame c).requests = s.requests := rfl
@[simp] theorem State.withFrame_slots (s : State) (c : FrameConfig) : (s.withFrame c).slots = s.slots := rfl
@[simp] theorem State.withFrame_config (s : State) (c : FrameConfig) : (s.withFrame c).config = s.config := rfl
@[simp] theorem State.withFrame_workerFailures (s : State) (c : FrameConfig) : (s.withFrame c).workerFailures = s.workerFailures := rfl
@[simp] theorem State.withFrame_memory (s : State) (c : FrameConfig) : (s.withFrame c).memory = s.memory := rfl
@[simp] theorem State.withFrame_scan (s : State) (c : FrameConfig) : (s.withFrame c).scan = s.scan := rfl
@[simp] theorem State.withFrame_sampled (s : State) (c : FrameConfig) : (s.withFrame c).sampled = s.sampled := rfl
@[simp] theorem State.withFrame_reg (s : State) (c : FrameConfig) : (s.withFrame c).reg = s.reg := rfl
@[simp] theorem State.withFrame_frame (s : State) (c : FrameConfig) : (s.withFrame c).frame = c := rfl
@[simp] theorem State.withFrame_pipe (s : State) (c : FrameConfig) : (s.withFrame c).pipe = s.pipe := rfl
@[simp] theorem State.withFrame_out (s : State) (c : FrameConfig) : (s.withFrame c).out = s.out := rfl
@[simp] theorem State.withFrame_latch (s : State) (c : FrameConfig) : (s.withFrame c).latch = s.latch := rfl
@[simp] theorem State.withFrame_pool (s : State) (c : FrameConfig) : (s.withFrame c).pool = s.pool := rfl
@[simp] theorem State.withFrame_workers (s : State) (c : FrameConfig) : (s.withFrame c).workers = s.workers := rfl
@[simp] theorem State.withFrame_log (s : State) (c : FrameConfig) : (s.withFrame c).log = s.log := rfl
@[simp] theorem State.withFrame_fatal (s : State) (c : FrameConfig) : (s.withFrame c).fatal = s.fatal := rfl
@[simp] theorem State.withFrame_presented (s : State) (c : FrameConfig) : (s.withFrame c).presented = s.presented := rfl
@[simp] theorem State.withFrame_result (s : State) (c : FrameConfig) : (s.withFrame c).result = s.result := rfl
@[simp] theorem State.withFrame_handedOver (s : State) (c : FrameConfig) : (s.withFrame c).handedOver = s.handedOver := rfl
@[simp] theorem State.withFrame_draws (s : State) (c : FrameConfig) : (s.withFrame c).draws = s.draws := rfl

/-! ### `State.withPipe` -/

@[simp] theorem State.withPipe_params (s : State) (p : PipelineState) : (s.withPipe p).params = s.params := rfl
@[simp] theorem State.withPipe_requests (s : State) (p : PipelineState) : (s.withPipe p).requests = s.requests := rfl
@[simp] theorem State.withPipe_slots (s : State) (p : PipelineState) : (s.withPipe p).slots = s.slots := rfl
@[simp] theorem State.withPipe_config (s : State) (p : PipelineState) : (s.withPipe p).config = s.config := rfl
@[simp] theorem State.withPipe_workerFailures (s : State) (p : PipelineState) : (s.withPipe p).workerFailures = s.workerFailures := rfl
@[simp] theorem State.withPipe_memory (s : State) (p : PipelineState) : (s.withPipe p).memory = s.memory := rfl
@[simp] theorem State.withPipe_scan (s : State) (p : PipelineState) : (s.withPipe p).scan = s.scan := rfl
@[simp] theorem State.withPipe_sampled (s : State) (p : PipelineState) : (s.withPipe p).sampled = s.sampled := rfl
@[simp] theorem State.withPipe_reg (s : State) (p : PipelineState) : (s.withPipe p).reg = s.reg := rfl
@[simp] theorem State.withPipe_frame (s : State) (p : PipelineState) : (s.withPipe p).frame = s.frame := rfl
@[simp] theorem State.withPipe_pipe (s : State) (p : PipelineState) : (s.withPipe p).pipe = p := rfl
@[simp] theorem State.withPipe_out (s : State) (p : PipelineState) : (s.withPipe p).out = s.out := rfl
@[simp] theorem State.withPipe_latch (s : State) (p : PipelineState) : (s.withPipe p).latch = s.latch := rfl
@[simp] theorem State.withPipe_pool (s : State) (p : PipelineState) : (s.withPipe p).pool = s.pool := rfl
@[simp] theorem State.withPipe_workers (s : State) (p : PipelineState) : (s.withPipe p).workers = s.workers := rfl
@[simp] theorem State.withPipe_log (s : State) (p : PipelineState) : (s.withPipe p).log = s.log := rfl
@[simp] theorem State.withPipe_fatal (s : State) (p : PipelineState) : (s.withPipe p).fatal = s.fatal := rfl
@[simp] theorem State.withPipe_presented (s : State) (p : PipelineState) : (s.withPipe p).presented = s.presented := rfl
@[simp] theorem State.withPipe_result (s : State) (p : PipelineState) : (s.withPipe p).result = s.result := rfl
@[simp] theorem State.withPipe_handedOver (s : State) (p : PipelineState) : (s.withPipe p).handedOver = s.handedOver := rfl
@[simp] theorem State.withPipe_draws (s : State) (p : PipelineState) : (s.withPipe p).draws = s.draws := rfl

/-! ### `State.withOut` -/

@[simp] theorem State.withOut_params (s : State) (o : List (Nat × Word)) : (s.withOut o).params = s.params := rfl
@[simp] theorem State.withOut_requests (s : State) (o : List (Nat × Word)) : (s.withOut o).requests = s.requests := rfl
@[simp] theorem State.withOut_slots (s : State) (o : List (Nat × Word)) : (s.withOut o).slots = s.slots := rfl
@[simp] theorem State.withOut_config (s : State) (o : List (Nat × Word)) : (s.withOut o).config = s.config := rfl
@[simp] theorem State.withOut_workerFailures (s : State) (o : List (Nat × Word)) : (s.withOut o).workerFailures = s.workerFailures := rfl
@[simp] theorem State.withOut_memory (s : State) (o : List (Nat × Word)) : (s.withOut o).memory = s.memory := rfl
@[simp] theorem State.withOut_scan (s : State) (o : List (Nat × Word)) : (s.withOut o).scan = s.scan := rfl
@[simp] theorem State.withOut_sampled (s : State) (o : List (Nat × Word)) : (s.withOut o).sampled = s.sampled := rfl
@[simp] theorem State.withOut_reg (s : State) (o : List (Nat × Word)) : (s.withOut o).reg = s.reg := rfl
@[simp] theorem State.withOut_frame (s : State) (o : List (Nat × Word)) : (s.withOut o).frame = s.frame := rfl
@[simp] theorem State.withOut_pipe (s : State) (o : List (Nat × Word)) : (s.withOut o).pipe = s.pipe := rfl
@[simp] theorem State.withOut_out (s : State) (o : List (Nat × Word)) : (s.withOut o).out = o := rfl
@[simp] theorem State.withOut_latch (s : State) (o : List (Nat × Word)) : (s.withOut o).latch = s.latch := rfl
@[simp] theorem State.withOut_pool (s : State) (o : List (Nat × Word)) : (s.withOut o).pool = s.pool := rfl
@[simp] theorem State.withOut_workers (s : State) (o : List (Nat × Word)) : (s.withOut o).workers = s.workers := rfl
@[simp] theorem State.withOut_log (s : State) (o : List (Nat × Word)) : (s.withOut o).log = s.log := rfl
@[simp] theorem State.withOut_fatal (s : State) (o : List (Nat × Word)) : (s.withOut o).fatal = s.fatal := rfl
@[simp] theorem State.withOut_presented (s : State) (o : List (Nat × Word)) : (s.withOut o).presented = s.presented := rfl
@[simp] theorem State.withOut_result (s : State) (o : List (Nat × Word)) : (s.withOut o).result = s.result := rfl
@[simp] theorem State.withOut_handedOver (s : State) (o : List (Nat × Word)) : (s.withOut o).handedOver = s.handedOver := rfl
@[simp] theorem State.withOut_draws (s : State) (o : List (Nat × Word)) : (s.withOut o).draws = s.draws := rfl

/-! ### `State.withLatch` -/

@[simp] theorem State.withLatch_params (s : State) (l : PixelLatches) : (s.withLatch l).params = s.params := rfl
@[simp] theorem State.withLatch_requests (s : State) (l : PixelLatches) : (s.withLatch l).requests = s.requests := rfl
@[simp] theorem State.withLatch_slots (s : State) (l : PixelLatches) : (s.withLatch l).slots = s.slots := rfl
@[simp] theorem State.withLatch_config (s : State) (l : PixelLatches) : (s.withLatch l).config = s.config := rfl
@[simp] theorem State.withLatch_workerFailures (s : State) (l : PixelLatches) : (s.withLatch l).workerFailures = s.workerFailures := rfl
@[simp] theorem State.withLatch_memory (s : State) (l : PixelLatches) : (s.withLatch l).memory = s.memory := rfl
@[simp] theorem State.withLatch_scan (s : State) (l : PixelLatches) : (s.withLatch l).scan = s.scan := rfl
@[simp] theorem State.withLatch_sampled (s : State) (l : PixelLatches) : (s.withLatch l).sampled = s.sampled := rfl
@[simp] theorem State.withLatch_reg (s : State) (l : PixelLatches) : (s.withLatch l).reg = s.reg := rfl
@[simp] theorem State.withLatch_frame (s : State) (l : PixelLatches) : (s.withLatch l).frame = s.frame := rfl
@[simp] theorem State.withLatch_pipe (s : State) (l : PixelLatches) : (s.withLatch l).pipe = s.pipe := rfl
@[simp] theorem State.withLatch_out (s : State) (l : PixelLatches) : (s.withLatch l).out = s.out := rfl
@[simp] theorem State.withLatch_latch (s : State) (l : PixelLatches) : (s.withLatch l).latch = l := rfl
@[simp] theorem State.withLatch_pool (s : State) (l : PixelLatches) : (s.withLatch l).pool = s.pool := rfl
@[simp] theorem State.withLatch_workers (s : State) (l : PixelLatches) : (s.withLatch l).workers = s.workers := rfl
@[simp] theorem State.withLatch_log (s : State) (l : PixelLatches) : (s.withLatch l).log = s.log := rfl
@[simp] theorem State.withLatch_fatal (s : State) (l : PixelLatches) : (s.withLatch l).fatal = s.fatal := rfl
@[simp] theorem State.withLatch_presented (s : State) (l : PixelLatches) : (s.withLatch l).presented = s.presented := rfl
@[simp] theorem State.withLatch_result (s : State) (l : PixelLatches) : (s.withLatch l).result = s.result := rfl
@[simp] theorem State.withLatch_handedOver (s : State) (l : PixelLatches) : (s.withLatch l).handedOver = s.handedOver := rfl
@[simp] theorem State.withLatch_draws (s : State) (l : PixelLatches) : (s.withLatch l).draws = s.draws := rfl

/-! ### `State.withPool` -/

@[simp] theorem State.withPool_params (s : State) (n : Nat) (ws : List (Nat × Worker)) : (s.withPool n ws).params = s.params := rfl
@[simp] theorem State.withPool_requests (s : State) (n : Nat) (ws : List (Nat × Worker)) : (s.withPool n ws).requests = s.requests := rfl
@[simp] theorem State.withPool_slots (s : State) (n : Nat) (ws : List (Nat × Worker)) : (s.withPool n ws).slots = s.slots := rfl
@[simp] theorem State.withPool_config (s : State) (n : Nat) (ws : List (Nat × Worker)) : (s.withPool n ws).config = s.config := rfl
@[simp] theorem State.withPool_workerFailures (s : State) (n : Nat) (ws : List (Nat × Worker)) : (s.withPool n ws).workerFailures = s.workerFailures := rfl
@[simp] theorem State.withPool_memory (s : State) (n : Nat) (ws : List (Nat × Worker)) : (s.withPool n ws).memory = s.memory := rfl
@[simp] theorem State.withPool_scan (s : State) (n : Nat) (ws : List (Nat × Worker)) : (s.withPool n ws).scan = s.scan := rfl
@[simp] theorem State.withPool_sampled (s : State) (n : Nat) (ws : List (Nat × Worker)) : (s.withPool n ws).sampled = s.sampled := rfl
@[simp] theorem State.withPool_reg (s : State) (n : Nat) (ws : List (Nat × Worker)) : (s.withPool n ws).reg = s.reg := rfl
@[simp] theorem State.withPool_frame (s : State) (n : Nat) (ws : List (Nat × Worker)) : (s.withPool n ws).frame = s.frame := rfl
@[simp] theorem State.withPool_pipe (s : State) (n : Nat) (ws : List (Nat × Worker)) : (s.withPool n ws).pipe = s.pipe := rfl
@[simp] theorem State.withPool_out (s : State) (n : Nat) (ws : List (Nat × Worker)) : (s.withPool n ws).out = s.out := rfl
@[simp] theorem State.withPool_latch (s : State) (n : Nat) (ws : List (Nat × Worker)) : (s.withPool n ws).latch = s.latch := rfl
@[simp] theorem State.withPool_pool (s : State) (n : Nat) (ws : List (Nat × Worker)) : (s.withPool n ws).pool = n := rfl
@[simp] theorem State.withPool_workers (s : State) (n : Nat) (ws : List (Nat × Worker)) : (s.withPool n ws).workers = ws := rfl
@[simp] theorem State.withPool_log (s : State) (n : Nat) (ws : List (Nat × Worker)) : (s.withPool n ws).log = s.log := rfl
@[simp] theorem State.withPool_fatal (s : State) (n : Nat) (ws : List (Nat × Worker)) : (s.withPool n ws).fatal = s.fatal := rfl
@[simp] theorem State.withPool_presented (s : State) (n : Nat) (ws : List (Nat × Worker)) : (s.withPool n ws).presented = s.presented := rfl
@[simp] theorem State.withPool_result (s : State) (n : Nat) (ws : List (Nat × Worker)) : (s.withPool n ws).result = s.result := rfl
@[simp] theorem State.withPool_handedOver (s : State) (n : Nat) (ws : List (Nat × Worker)) : (s.withPool n ws).handedOver = s.handedOver := rfl
@[simp] theorem State.withPool_draws (s : State) (n : Nat) (ws : List (Nat × Worker)) : (s.withPool n ws).draws = s.draws := rfl

/-! ### `State.withWorkers` -/

@[simp] theorem State.withWorkers_params (s : State) (ws : List (Nat × Worker)) : (s.withWorkers ws).params = s.params := rfl
@[simp] theorem State.withWorkers_requests (s : State) (ws : List (Nat × Worker)) : (s.withWorkers ws).requests = s.requests := rfl
@[simp] theorem State.withWorkers_slots (s : State) (ws : List (Nat × Worker)) : (s.withWorkers ws).slots = s.slots := rfl
@[simp] theorem State.withWorkers_config (s : State) (ws : List (Nat × Worker)) : (s.withWorkers ws).config = s.config := rfl
@[simp] theorem State.withWorkers_workerFailures (s : State) (ws : List (Nat × Worker)) : (s.withWorkers ws).workerFailures = s.workerFailures := rfl
@[simp] theorem State.withWorkers_memory (s : State) (ws : List (Nat × Worker)) : (s.withWorkers ws).memory = s.memory := rfl
@[simp] theorem State.withWorkers_scan (s : State) (ws : List (Nat × Worker)) : (s.withWorkers ws).scan = s.scan := rfl
@[simp] theorem State.withWorkers_sampled (s : State) (ws : List (Nat × Worker)) : (s.withWorkers ws).sampled = s.sampled := rfl
@[simp] theorem State.withWorkers_reg (s : State) (ws : List (Nat × Worker)) : (s.withWorkers ws).reg = s.reg := rfl
@[simp] theorem State.withWorkers_frame (s : State) (ws : List (Nat × Worker)) : (s.withWorkers ws).frame = s.frame := rfl
@[simp] theorem State.withWorkers_pipe (s : State) (ws : List (Nat × Worker)) : (s.withWorkers ws).pipe = s.pipe := rfl
@[simp] theorem State.withWorkers_out (s : State) (ws : List (Nat × Worker)) : (s.withWorkers ws).out = s.out := rfl
@[simp] theorem State.withWorkers_latch (s : State) (ws : List (Nat × Worker)) : (s.withWorkers ws).latch = s.latch := rfl
@[simp] theorem State.withWorkers_pool (s : State) (ws : List (Nat × Worker)) : (s.withWorkers ws).pool = s.pool := rfl
@[simp] theorem State.withWorkers_workers (s : State) (ws : List (Nat × Worker)) : (s.withWorkers ws).workers = ws := rfl
@[simp] theorem State.withWorkers_log (s : State) (ws : List (Nat × Worker)) : (s.withWorkers ws).log = s.log := rfl
@[simp] theorem State.withWorkers_fatal (s : State) (ws : List (Nat × Worker)) : (s.withWorkers ws).fatal = s.fatal := rfl
@[simp] theorem State.withWorkers_presented (s : State) (ws : List (Nat × Worker)) : (s.withWorkers ws).presented = s.presented := rfl
@[simp] theorem State.withWorkers_result (s : State) (ws : List (Nat × Worker)) : (s.withWorkers ws).result = s.result := rfl
@[simp] theorem State.withWorkers_handedOver (s : State) (ws : List (Nat × Worker)) : (s.withWorkers ws).handedOver = s.handedOver := rfl
@[simp] theorem State.withWorkers_draws (s : State) (ws : List (Nat × Worker)) : (s.withWorkers ws).draws = s.draws := rfl

/-! ### `State.withResult` -/

@[simp] theorem State.withResult_params (s : State) (r : FrameResult) : (s.withResult r).params = s.params := rfl
@[simp] theorem State.withResult_requests (s : State) (r : FrameResult) : (s.withResult r).requests = s.requests := rfl
@[simp] theorem State.withResult_slots (s : State) (r : FrameResult) : (s.withResult r).slots = s.slots := rfl
@[simp] theorem State.withResult_config (s : State) (r : FrameResult) : (s.withResult r).config = s.config := rfl
@[simp] theorem State.withResult_workerFailures (s : State) (r : FrameResult) : (s.withResult r).workerFailures = s.workerFailures := rfl
@[simp] theorem State.withResult_memory (s : State) (r : FrameResult) : (s.withResult r).memory = s.memory := rfl
@[simp] theorem State.withResult_scan (s : State) (r : FrameResult) : (s.withResult r).scan = s.scan := rfl
@[simp] theorem State.withResult_sampled (s : State) (r : FrameResult) : (s.withResult r).sampled = s.sampled := rfl
@[simp] theorem State.withResult_reg (s : State) (r : FrameResult) : (s.withResult r).reg = s.reg := rfl
@[simp] theorem State.withResult_frame (s : State) (r : FrameResult) : (s.withResult r).frame = s.frame := rfl
@[simp] theorem State.withResult_pipe (s : State) (r : FrameResult) : (s.withResult r).pipe = s.pipe := rfl
@[simp] theorem State.withResult_out (s : State) (r : FrameResult) : (s.withResult r).out = s.out := rfl
@[simp] theorem State.withResult_latch (s : State) (r : FrameResult) : (s.withResult r).latch = s.latch := rfl
@[simp] theorem State.withResult_pool (s : State) (r : FrameResult) : (s.withResult r).pool = s.pool := rfl
@[simp] theorem State.withResult_workers (s : State) (r : FrameResult) : (s.withResult r).workers = s.workers := rfl
@[simp] theorem State.withResult_log (s : State) (r : FrameResult) : (s.withResult r).log = s.log := rfl
@[simp] theorem State.withResult_fatal (s : State) (r : FrameResult) : (s.withResult r).fatal = s.fatal := rfl
@[simp] theorem State.withResult_presented (s : State) (r : FrameResult) : (s.withResult r).presented = s.presented := rfl
@[simp] theorem State.withResult_result (s : State) (r : FrameResult) : (s.withResult r).result = some r := rfl
@[simp] theorem State.withResult_handedOver (s : State) (r : FrameResult) : (s.withResult r).handedOver = s.handedOver := rfl
@[simp] theorem State.withResult_draws (s : State) (r : FrameResult) : (s.withResult r).draws = s.draws := rfl

/-! ### `State.withPresented` -/

@[simp] theorem State.withPresented_params (s : State) (d : Descriptor) : (s.withPresented d).params = s.params := rfl
@[simp] theorem State.withPresented_requests (s : State) (d : Descriptor) : (s.withPresented d).requests = s.requests := rfl
@[simp] theorem State.withPresented_slots (s : State) (d : Descriptor) : (s.withPresented d).slots = s.slots := rfl
@[simp] theorem State.withPresented_config (s : State) (d : Descriptor) : (s.withPresented d).config = s.config := rfl
@[simp] theorem State.withPresented_workerFailures (s : State) (d : Descriptor) : (s.withPresented d).workerFailures = s.workerFailures := rfl
@[simp] theorem State.withPresented_memory (s : State) (d : Descriptor) : (s.withPresented d).memory = s.memory := rfl
@[simp] theorem State.withPresented_scan (s : State) (d : Descriptor) : (s.withPresented d).scan = s.scan := rfl
@[simp] theorem State.withPresented_sampled (s : State) (d : Descriptor) : (s.withPresented d).sampled = s.sampled := rfl
@[simp] theorem State.withPresented_reg (s : State) (d : Descriptor) : (s.withPresented d).reg = s.reg := rfl
@[simp] theorem State.withPresented_frame (s : State) (d : Descriptor) : (s.withPresented d).frame = s.frame := rfl
@[simp] theorem State.withPresented_pipe (s : State) (d : Descriptor) : (s.withPresented d).pipe = s.pipe := rfl
@[simp] theorem State.withPresented_out (s : State) (d : Descriptor) : (s.withPresented d).out = s.out := rfl
@[simp] theorem State.withPresented_latch (s : State) (d : Descriptor) : (s.withPresented d).latch = s.latch := rfl
@[simp] theorem State.withPresented_pool (s : State) (d : Descriptor) : (s.withPresented d).pool = s.pool := rfl
@[simp] theorem State.withPresented_workers (s : State) (d : Descriptor) : (s.withPresented d).workers = s.workers := rfl
@[simp] theorem State.withPresented_log (s : State) (d : Descriptor) : (s.withPresented d).log = s.log := rfl
@[simp] theorem State.withPresented_fatal (s : State) (d : Descriptor) : (s.withPresented d).fatal = s.fatal := rfl
@[simp] theorem State.withPresented_presented (s : State) (d : Descriptor) : (s.withPresented d).presented = some d := rfl
@[simp] theorem State.withPresented_result (s : State) (d : Descriptor) : (s.withPresented d).result = s.result := rfl
@[simp] theorem State.withPresented_handedOver (s : State) (d : Descriptor) : (s.withPresented d).handedOver = s.handedOver := rfl
@[simp] theorem State.withPresented_draws (s : State) (d : Descriptor) : (s.withPresented d).draws = s.draws := rfl

/-! ### `State.withHandedOver` -/

@[simp] theorem State.withHandedOver_params (s : State) (b : Bool) : (s.withHandedOver b).params = s.params := rfl
@[simp] theorem State.withHandedOver_requests (s : State) (b : Bool) : (s.withHandedOver b).requests = s.requests := rfl
@[simp] theorem State.withHandedOver_slots (s : State) (b : Bool) : (s.withHandedOver b).slots = s.slots := rfl
@[simp] theorem State.withHandedOver_config (s : State) (b : Bool) : (s.withHandedOver b).config = s.config := rfl
@[simp] theorem State.withHandedOver_workerFailures (s : State) (b : Bool) : (s.withHandedOver b).workerFailures = s.workerFailures := rfl
@[simp] theorem State.withHandedOver_memory (s : State) (b : Bool) : (s.withHandedOver b).memory = s.memory := rfl
@[simp] theorem State.withHandedOver_scan (s : State) (b : Bool) : (s.withHandedOver b).scan = s.scan := rfl
@[simp] theorem State.withHandedOver_sampled (s : State) (b : Bool) : (s.withHandedOver b).sampled = s.sampled := rfl
@[simp] theorem State.withHandedOver_reg (s : State) (b : Bool) : (s.withHandedOver b).reg = s.reg := rfl
@[simp] theorem State.withHandedOver_frame (s : State) (b : Bool) : (s.withHandedOver b).frame = s.frame := rfl
@[simp] theorem State.withHandedOver_pipe (s : State) (b : Bool) : (s.withHandedOver b).pipe = s.pipe := rfl
@[simp] theorem State.withHandedOver_out (s : State) (b : Bool) : (s.withHandedOver b).out = s.out := rfl
@[simp] theorem State.withHandedOver_latch (s : State) (b : Bool) : (s.withHandedOver b).latch = s.latch := rfl
@[simp] theorem State.withHandedOver_pool (s : State) (b : Bool) : (s.withHandedOver b).pool = s.pool := rfl
@[simp] theorem State.withHandedOver_workers (s : State) (b : Bool) : (s.withHandedOver b).workers = s.workers := rfl
@[simp] theorem State.withHandedOver_log (s : State) (b : Bool) : (s.withHandedOver b).log = s.log := rfl
@[simp] theorem State.withHandedOver_fatal (s : State) (b : Bool) : (s.withHandedOver b).fatal = s.fatal := rfl
@[simp] theorem State.withHandedOver_presented (s : State) (b : Bool) : (s.withHandedOver b).presented = s.presented := rfl
@[simp] theorem State.withHandedOver_result (s : State) (b : Bool) : (s.withHandedOver b).result = s.result := rfl
@[simp] theorem State.withHandedOver_handedOver (s : State) (b : Bool) : (s.withHandedOver b).handedOver = b := rfl
@[simp] theorem State.withHandedOver_draws (s : State) (b : Bool) : (s.withHandedOver b).draws = s.draws := rfl

/-! ### `State.withDraws` -/

@[simp] theorem State.withDraws_params (s : State) (n : Nat) : (s.withDraws n).params = s.params := rfl
@[simp] theorem State.withDraws_requests (s : State) (n : Nat) : (s.withDraws n).requests = s.requests := rfl
@[simp] theorem State.withDraws_slots (s : State) (n : Nat) : (s.withDraws n).slots = s.slots := rfl
@[simp] theorem State.withDraws_config (s : State) (n : Nat) : (s.withDraws n).config = s.config := rfl
@[simp] theorem State.withDraws_workerFailures (s : State) (n : Nat) : (s.withDraws n).workerFailures = s.workerFailures := rfl
@[simp] theorem State.withDraws_memory (s : State) (n : Nat) : (s.withDraws n).memory = s.memory := rfl
@[simp] theorem State.withDraws_scan (s : State) (n : Nat) : (s.withDraws n).scan = s.scan := rfl
@[simp] theorem State.withDraws_sampled (s : State) (n : Nat) : (s.withDraws n).sampled = s.sampled := rfl
@[simp] theorem State.withDraws_reg (s : State) (n : Nat) : (s.withDraws n).reg = s.reg := rfl
@[simp] theorem State.withDraws_frame (s : State) (n : Nat) : (s.withDraws n).frame = s.frame := rfl
@[simp] theorem State.withDraws_pipe (s : State) (n : Nat) : (s.withDraws n).pipe = s.pipe := rfl
@[simp] theorem State.withDraws_out (s : State) (n : Nat) : (s.withDraws n).out = s.out := rfl
@[simp] theorem State.withDraws_latch (s : State) (n : Nat) : (s.withDraws n).latch = s.latch := rfl
@[simp] theorem State.withDraws_pool (s : State) (n : Nat) : (s.withDraws n).pool = s.pool := rfl
@[simp] theorem State.withDraws_workers (s : State) (n : Nat) : (s.withDraws n).workers = s.workers := rfl
@[simp] theorem State.withDraws_log (s : State) (n : Nat) : (s.withDraws n).log = s.log := rfl
@[simp] theorem State.withDraws_fatal (s : State) (n : Nat) : (s.withDraws n).fatal = s.fatal := rfl
@[simp] theorem State.withDraws_presented (s : State) (n : Nat) : (s.withDraws n).presented = s.presented := rfl
@[simp] theorem State.withDraws_result (s : State) (n : Nat) : (s.withDraws n).result = s.result := rfl
@[simp] theorem State.withDraws_handedOver (s : State) (n : Nat) : (s.withDraws n).handedOver = s.handedOver := rfl
@[simp] theorem State.withDraws_draws (s : State) (n : Nat) : (s.withDraws n).draws = n := rfl

/-! ### `warn` -/

@[simp] theorem warn_params (s : State) (c : WarnCode) : (warn c s).params = s.params := rfl
@[simp] theorem warn_requests (s : State) (c : WarnCode) : (warn c s).requests = s.requests := rfl
@[simp] theorem warn_slots (s : State) (c : WarnCode) : (warn c s).slots = s.slots := rfl
@[simp] theorem warn_config (s : State) (c : WarnCode) : (warn c s).config = s.config := rfl
@[simp] theorem warn_workerFailures (s : State) (c : WarnCode) : (warn c s).workerFailures = s.workerFailures := rfl
@[simp] theorem warn_memory (s : State) (c : WarnCode) : (warn c s).memory = s.memory := rfl
@[simp] theorem warn_scan (s : State) (c : WarnCode) : (warn c s).scan = s.scan := rfl
@[simp] theorem warn_sampled (s : State) (c : WarnCode) : (warn c s).sampled = s.sampled := rfl
@[simp] theorem warn_reg (s : State) (c : WarnCode) : (warn c s).reg = s.reg := rfl
@[simp] theorem warn_frame (s : State) (c : WarnCode) : (warn c s).frame = s.frame := rfl
@[simp] theorem warn_pipe (s : State) (c : WarnCode) : (warn c s).pipe = s.pipe := rfl
@[simp] theorem warn_out (s : State) (c : WarnCode) : (warn c s).out = s.out := rfl
@[simp] theorem warn_latch (s : State) (c : WarnCode) : (warn c s).latch = s.latch := rfl
@[simp] theorem warn_pool (s : State) (c : WarnCode) : (warn c s).pool = s.pool := rfl
@[simp] theorem warn_workers (s : State) (c : WarnCode) : (warn c s).workers = s.workers := rfl
@[simp] theorem warn_log (s : State) (c : WarnCode) : (warn c s).log = s.log ++ [c] := rfl
@[simp] theorem warn_fatal (s : State) (c : WarnCode) : (warn c s).fatal = s.fatal := rfl
@[simp] theorem warn_presented (s : State) (c : WarnCode) : (warn c s).presented = s.presented := rfl
@[simp] theorem warn_result (s : State) (c : WarnCode) : (warn c s).result = s.result := rfl
@[simp] theorem warn_handedOver (s : State) (c : WarnCode) : (warn c s).handedOver = s.handedOver := rfl
@[simp] theorem warn_draws (s : State) (c : WarnCode) : (warn c s).draws = s.draws := rfl

/-! ### `warnTimes` -/

@[simp] theorem warnTimes_params (s : State) (c : WarnCode) (n : Nat) : (warnTimes c n s).params = s.params := rfl
@[simp] theorem warnTimes_requests (s : State) (c : WarnCode) (n : Nat) : (warnTimes c n s).requests = s.requests := rfl
@[simp] theorem warnTimes_slots (s : State) (c : WarnCode) (n : Nat) : (warnTimes c n s).slots = s.slots := rfl
@[simp] theorem warnTimes_config (s : State) (c : WarnCode) (n : Nat) : (warnTimes c n s).config = s.config := rfl
@[simp] theorem warnTimes_workerFailures (s : State) (c : WarnCode) (n : Nat) : (warnTimes c n s).workerFailures = s.workerFailures := rfl
@[simp] theorem warnTimes_memory (s : State) (c : WarnCode) (n : Nat) : (warnTimes c n s).memory = s.memory := rfl
@[simp] theorem warnTimes_scan (s : State) (c : WarnCode) (n : Nat) : (warnTimes c n s).scan = s.scan := rfl
@[simp] theorem warnTimes_sampled (s : State) (c : WarnCode) (n : Nat) : (warnTimes c n s).sampled = s.sampled := rfl
@[simp] theorem warnTimes_reg (s : State) (c : WarnCode) (n : Nat) : (warnTimes c n s).reg = s.reg := rfl
@[simp] theorem warnTimes_frame (s : State) (c : WarnCode) (n : Nat) : (warnTimes c n s).frame = s.frame := rfl
@[simp] theorem warnTimes_pipe (s : State) (c : WarnCode) (n : Nat) : (warnTimes c n s).pipe = s.pipe := rfl
@[simp] theorem warnTimes_out (s : State) (c : WarnCode) (n : Nat) : (warnTimes c n s).out = s.out := rfl
@[simp] theorem warnTimes_latch (s : State) (c : WarnCode) (n : Nat) : (warnTimes c n s).latch = s.latch := rfl
@[simp] theorem warnTimes_pool (s : State) (c : WarnCode) (n : Nat) : (warnTimes c n s).pool = s.pool := rfl
@[simp] theorem warnTimes_workers (s : State) (c : WarnCode) (n : Nat) : (warnTimes c n s).workers = s.workers := rfl
@[simp] theorem warnTimes_log (s : State) (c : WarnCode) (n : Nat) : (warnTimes c n s).log = s.log ++ List.replicate n c := rfl
@[simp] theorem warnTimes_fatal (s : State) (c : WarnCode) (n : Nat) : (warnTimes c n s).fatal = s.fatal := rfl
@[simp] theorem warnTimes_presented (s : State) (c : WarnCode) (n : Nat) : (warnTimes c n s).presented = s.presented := rfl
@[simp] theorem warnTimes_result (s : State) (c : WarnCode) (n : Nat) : (warnTimes c n s).result = s.result := rfl
@[simp] theorem warnTimes_handedOver (s : State) (c : WarnCode) (n : Nat) : (warnTimes c n s).handedOver = s.handedOver := rfl
@[simp] theorem warnTimes_draws (s : State) (c : WarnCode) (n : Nat) : (warnTimes c n s).draws = s.draws := rfl

/-! ### `raiseFatal` -/

@[simp] theorem raiseFatal_params (s : State) (c : FatalCode) : (raiseFatal c s).params = s.params := rfl
@[simp] theorem raiseFatal_requests (s : State) (c : FatalCode) : (raiseFatal c s).requests = s.requests := rfl
@[simp] theorem raiseFatal_slots (s : State) (c : FatalCode) : (raiseFatal c s).slots = s.slots := rfl
@[simp] theorem raiseFatal_config (s : State) (c : FatalCode) : (raiseFatal c s).config = s.config := rfl
@[simp] theorem raiseFatal_workerFailures (s : State) (c : FatalCode) : (raiseFatal c s).workerFailures = s.workerFailures := rfl
@[simp] theorem raiseFatal_memory (s : State) (c : FatalCode) : (raiseFatal c s).memory = s.memory := rfl
@[simp] theorem raiseFatal_scan (s : State) (c : FatalCode) : (raiseFatal c s).scan = { s.scan with phase := .idle } := rfl
@[simp] theorem raiseFatal_sampled (s : State) (c : FatalCode) : (raiseFatal c s).sampled = s.sampled := rfl
@[simp] theorem raiseFatal_reg (s : State) (c : FatalCode) : (raiseFatal c s).reg = s.reg := rfl
@[simp] theorem raiseFatal_frame (s : State) (c : FatalCode) : (raiseFatal c s).frame = s.frame := rfl
@[simp] theorem raiseFatal_pipe (s : State) (c : FatalCode) : (raiseFatal c s).pipe = s.pipe := rfl
@[simp] theorem raiseFatal_out (s : State) (c : FatalCode) : (raiseFatal c s).out = s.out := rfl
@[simp] theorem raiseFatal_latch (s : State) (c : FatalCode) : (raiseFatal c s).latch = s.latch := rfl
@[simp] theorem raiseFatal_pool (s : State) (c : FatalCode) : (raiseFatal c s).pool = s.pool := rfl
@[simp] theorem raiseFatal_workers (s : State) (c : FatalCode) : (raiseFatal c s).workers = s.workers := rfl
@[simp] theorem raiseFatal_log (s : State) (c : FatalCode) : (raiseFatal c s).log = s.log := rfl
@[simp] theorem raiseFatal_fatal (s : State) (c : FatalCode) : (raiseFatal c s).fatal = true := rfl
@[simp] theorem raiseFatal_presented (s : State) (c : FatalCode) : (raiseFatal c s).presented = s.presented := rfl
@[simp] theorem raiseFatal_result (s : State) (c : FatalCode) : (raiseFatal c s).result = some (.fatal c) := rfl
@[simp] theorem raiseFatal_handedOver (s : State) (c : FatalCode) : (raiseFatal c s).handedOver = false := rfl
@[simp] theorem raiseFatal_draws (s : State) (c : FatalCode) : (raiseFatal c s).draws = s.draws := rfl

/-! ### `skip` -/

@[simp] theorem skip_params (s : State) (c : SkipCode) : (skip c s).params = s.params := rfl
@[simp] theorem skip_requests (s : State) (c : SkipCode) : (skip c s).requests = s.requests := rfl
@[simp] theorem skip_slots (s : State) (c : SkipCode) : (skip c s).slots = s.slots := rfl
@[simp] theorem skip_config (s : State) (c : SkipCode) : (skip c s).config = s.config := rfl
@[simp] theorem skip_workerFailures (s : State) (c : SkipCode) : (skip c s).workerFailures = s.workerFailures := rfl
@[simp] theorem skip_memory (s : State) (c : SkipCode) : (skip c s).memory = s.memory := rfl
@[simp] theorem skip_scan (s : State) (c : SkipCode) : (skip c s).scan = { s.scan with phase := .idle } := rfl
@[simp] theorem skip_sampled (s : State) (c : SkipCode) : (skip c s).sampled = s.sampled := rfl
@[simp] theorem skip_reg (s : State) (c : SkipCode) : (skip c s).reg = s.reg := rfl
@[simp] theorem skip_frame (s : State) (c : SkipCode) : (skip c s).frame = s.frame := rfl
@[simp] theorem skip_pipe (s : State) (c : SkipCode) : (skip c s).pipe = s.pipe := rfl
@[simp] theorem skip_out (s : State) (c : SkipCode) : (skip c s).out = s.out := rfl
@[simp] theorem skip_latch (s : State) (c : SkipCode) : (skip c s).latch = s.latch := rfl
@[simp] theorem skip_pool (s : State) (c : SkipCode) : (skip c s).pool = s.pool := rfl
@[simp] theorem skip_workers (s : State) (c : SkipCode) : (skip c s).workers = s.workers := rfl
@[simp] theorem skip_log (s : State) (c : SkipCode) : (skip c s).log = s.log := rfl
@[simp] theorem skip_fatal (s : State) (c : SkipCode) : (skip c s).fatal = s.fatal := rfl
@[simp] theorem skip_presented (s : State) (c : SkipCode) : (skip c s).presented = s.presented := rfl
@[simp] theorem skip_result (s : State) (c : SkipCode) : (skip c s).result = some (.skip c) := rfl
@[simp] theorem skip_handedOver (s : State) (c : SkipCode) : (skip c s).handedOver = s.handedOver := rfl
@[simp] theorem skip_draws (s : State) (c : SkipCode) : (skip c s).draws = s.draws := rfl

/-! ### `resetBlock` -/

@[simp] theorem resetBlock_params (s : State) : (resetBlock s).params = s.params := rfl
@[simp] theorem resetBlock_requests (s : State) : (resetBlock s).requests = s.requests := rfl
@[simp] theorem resetBlock_slots (s : State) : (resetBlock s).slots = s.slots := rfl
@[simp] theorem resetBlock_config (s : State) : (resetBlock s).config = s.config := rfl
@[simp] theorem resetBlock_workerFailures (s : State) : (resetBlock s).workerFailures = s.workerFailures := rfl
@[simp] theorem resetBlock_memory (s : State) : (resetBlock s).memory = s.memory := rfl
@[simp] theorem resetBlock_scan (s : State) : (resetBlock s).scan = {} := rfl
@[simp] theorem resetBlock_sampled (s : State) : (resetBlock s).sampled = {} := rfl
@[simp] theorem resetBlock_reg (s : State) : (resetBlock s).reg = {} := rfl
@[simp] theorem resetBlock_frame (s : State) : (resetBlock s).frame = {} := rfl
@[simp] theorem resetBlock_pipe (s : State) : (resetBlock s).pipe = {} := rfl
@[simp] theorem resetBlock_out (s : State) : (resetBlock s).out = [] := rfl
@[simp] theorem resetBlock_latch (s : State) : (resetBlock s).latch = {} := rfl
@[simp] theorem resetBlock_pool (s : State) : (resetBlock s).pool = 0 := rfl
@[simp] theorem resetBlock_workers (s : State) : (resetBlock s).workers = [] := rfl
@[simp] theorem resetBlock_log (s : State) : (resetBlock s).log = [] := rfl
@[simp] theorem resetBlock_fatal (s : State) : (resetBlock s).fatal = false := rfl
@[simp] theorem resetBlock_presented (s : State) : (resetBlock s).presented = none := rfl
@[simp] theorem resetBlock_result (s : State) : (resetBlock s).result = none := rfl
@[simp] theorem resetBlock_handedOver (s : State) : (resetBlock s).handedOver = false := rfl
@[simp] theorem resetBlock_draws (s : State) : (resetBlock s).draws = s.draws := rfl

end Sys2Proof.Machine
end

