-- ==== Sys2Proof/Laws/Render.lean ====
section
/-! SUPPORT. What one scanline, the workers and the whole render can change, and what they keep. -/

namespace Sys2Proof.Machine

/-! ### Along a line -/

/-- A property of a line's run that every pixel keeps holds of the whole line. -/
theorem foldl_keeps {α β : Type} (f : α → β → α) (p : α → Prop) (h : ∀ a b, p a → p (f a b)) :
    ∀ (l : List β) (a : α), p a → p (l.foldl f a)
  | [], _, ha => ha
  | b :: l, a, ha => foldl_keeps f p h l (f a b) (h a b ha)

/-- A cached pixel keeps bits [31:24] at 0. -/
theorem cachedPixel_lt (P : Params) (m : Memory) (C : FrameConfig) (draws y i : Nat) (wk : Worker) :
    (cachedPixel P m C draws y i wk).1.toNat < 2 ^ 24 := by
  unfold cachedPixel
  split
  · exact Nat.two_pow_pos 24
  · exact pack_lt _

/-- A normal line keeps the form of the buffer. -/
theorem outWf_normalLine (P : Params) (m : Memory) (C : FrameConfig) (draws y : Nat) {run : LineRun}
    (h : outWf P run.out = true) : outWf P (normalLine P m C draws y run).out = true :=
  foldl_keeps _ (fun r : LineRun => outWf P r.out = true)
    (fun r _ hr => outWf_writeOut hr _ _ (cachedPixel_lt P m C draws y _ r.worker)) _ _ h

/-- A fast line keeps the form of the buffer. -/
theorem outWf_fastLine (P : Params) (m : Memory) (c : HostConfig) (C : FrameConfig) (draws y : Nat) {run : LineRun}
    (h : outWf P run.out = true) : outWf P (fastLine P m c C draws y run).out = true :=
  foldl_keeps _ (fun r : LineRun => outWf P r.out = true) (fun _ _ hr => outWf_writeOut hr _ _ (pack_lt _)) _ _ h

/-- A normal line keeps a worker whose caches hold only fresh values such a worker. -/
theorem workerHolds_normalLine (P : Params) (m : Memory) (C : FrameConfig) (draws y : Nat) {run : LineRun}
    (hs : P.cachePromoteStale = false) (h : workerHolds P m C run.worker.caches = true) :
    workerHolds P m C (normalLine P m C draws y run).worker.caches = true :=
  foldl_keeps _ (fun r : LineRun => workerHolds P m C r.worker.caches = true)
    (fun _ _ hr => (cachedPixel_holds P m C draws y _ hr).2.2) _ _ (promote_holds P m C h hs _)

/-- A fast line leaves the caches alone. -/
theorem fastLine_caches (P : Params) (m : Memory) (c : HostConfig) (C : FrameConfig) (draws y : Nat) (run : LineRun) :
    (fastLine P m c C draws y run).worker.caches = run.worker.caches :=
  foldl_keeps (fastPixelStep P m c C draws y) (fun r : LineRun => r.worker.caches = run.worker.caches)
    (fun _ _ hr => hr) _ _ rfl

/-! ### One scanline of the frame -/

/-- `t` differs from `s` in the output buffer, the workers and the scan position at most. -/
def RendersOnly (s t : State) : Prop := t = ((s.withOut t.out).withWorkers t.workers).withScan t.scan

theorem RendersOnly.refl (s : State) : RendersOnly s s := rfl

theorem RendersOnly.trans {s t u : State} (h : RendersOnly s t) (h' : RendersOnly t u) : RendersOnly s u := by
  unfold RendersOnly at *
  rw [h'] ; rw [h]; rfl

/-- A scanline changes the output buffer, the workers and the scan position at most, and not the phase. -/
theorem renderScanline_rendersOnly (s : State) (y : Nat) :
    RendersOnly s (renderScanline s y) ∧ (renderScanline s y).scan.phase = s.scan.phase := ⟨rfl, rfl⟩

/-- A scanline keeps the form of the state. -/
theorem renderScanline_wf {s : State} (h : s.wf = true) (y : Nat) : (renderScanline s y).wf = true := by
  obtain ⟨h1, h2, h3, h4⟩ := State.wf_iff.1 h
  refine State.wf_iff.2 ⟨h1, ?_, h3, workersWf_putWorker h4 _ _⟩
  change outWf s.params (lineRun s y _).out = true
  unfold lineRun
  cases s.sampled.displayMode
  · exact outWf_normalLine _ _ _ _ _ h2
  all_goals exact outWf_fastLine _ _ _ _ _ _ h2

/-- Every worker holds only fresh values. -/
def WorkersHold (s : State) : Prop := ∀ e ∈ s.workers, workerHolds s.params s.memory s.frame e.2.caches = true

/-- Whichever worker is asked for holds only fresh values. -/
theorem WorkersHold.getWorker {s : State} (h : WorkersHold s) (k : Nat) :
    workerHolds s.params s.memory s.frame (getWorker s.params s.workers k).caches = true := by
  rcases getWorker_mem_or_fresh s.params s.workers k with ⟨e, he, hv⟩ | hv
  · rw [← hv]; exact h e he
  · rw [hv]; rfl

/-- A scanline keeps every worker holding only fresh values. -/
theorem renderScanline_workersHold {s : State} (h : WorkersHold s) (hs : s.params.cachePromoteStale = false)
    (y : Nat) : WorkersHold (renderScanline s y) := by
  intro e he
  change workerHolds s.params s.memory s.frame e.2.caches = true
  rcases mem_putWorker _ _ e he with hm | hv
  · exact h e hm
  · rw [hv]
    unfold lineRun
    have hk := h.getWorker (y % workerCount s.params s.sampled)
    cases s.sampled.displayMode
    · exact workerHolds_normalLine _ _ _ _ _ hs hk
    all_goals (simp only [fastLine_caches]; exact hk)

/-! ### The workers and the whole render -/

/-- A property every scanline keeps holds after the workers. -/
theorem runWorkers_keeps (p : State → Prop) (h : ∀ s y, p s → p (renderScanline s y)) {s : State} (hs : p s) :
    p (runWorkers s) :=
  foldl_keeps _ p (fun a k ha => foldl_keeps _ p h (completedScanlines a.workerFailures _ _ k) a ha) _ _ hs

/-- The workers change the output buffer, themselves and the scan position at most, and not the phase. -/
theorem runWorkers_rendersOnly (s : State) :
    RendersOnly s (runWorkers s) ∧ (runWorkers s).scan.phase = s.scan.phase :=
  runWorkers_keeps (fun t => RendersOnly s t ∧ t.scan.phase = s.scan.phase)
    (fun t y ht => ⟨ht.1.trans (renderScanline_rendersOnly t y).1, (renderScanline_rendersOnly t y).2.trans ht.2⟩)
    ⟨RendersOnly.refl s, rfl⟩

/-- The workers keep the form of the state. -/
theorem runWorkers_wf {s : State} (h : s.wf = true) : (runWorkers s).wf = true :=
  runWorkers_keeps (fun t => t.wf = true) (fun _ y ht => renderScanline_wf ht y) h

/-- What the render answers: nothing rendered, a worker failed, or every scanline rendered. -/
theorem renderFrame_cases (s : State) :
    (rendersNothing s = true ∧ renderFrame s = joinWorkers 0 s) ∨
      (rendersNothing s = false ∧
        anyWorkerFails s.workerFailures (workerCount s.params s.sampled) = true ∧
        renderFrame s = raiseFatal .f2 (runWorkers s)) ∨
      (rendersNothing s = false ∧
        anyWorkerFails s.workerFailures (workerCount s.params s.sampled) = false ∧
        renderFrame s = joinWorkers (scanlineCount s) (runWorkers s)) := by
  have hro := (runWorkers_rendersOnly s).1
  have h1 : (runWorkers s).workerFailures = s.workerFailures := by rw [hro]; rfl
  have h2 : (runWorkers s).params = s.params := by rw [hro]; rfl
  have h3 : (runWorkers s).sampled = s.sampled := by rw [hro]; rfl
  unfold renderFrame
  simp only [h1, h2, h3]
  cases rendersNothing s <;> cases anyWorkerFails s.workerFailures (workerCount s.params s.sampled) <;> simp

/-- The render keeps the form of the state. -/
theorem renderFrame_wf {s : State} (h : s.wf = true) : (renderFrame s).wf = true := by
  rcases renderFrame_cases s with ⟨-, e⟩ | ⟨-, -, e⟩ | ⟨-, -, e⟩ <;> rw [e]
  · exact h
  · exact runWorkers_wf h
  · exact runWorkers_wf h

end Sys2Proof.Machine
end

