-- ==== Sys2Proof/Laws/Begin.lean ====
section
/-! SUPPORT. What `begin_frame` can answer, stage by stage, and what it never touches. -/

namespace Sys2Proof.Machine

/-- The state a frame step never writes is the same in `t` as in `s`: the host's inputs, memory, the pixel latches and
the presented-frame descriptor. -/
structure KeepsInputs (s t : State) : Prop where
  params : t.params = s.params
  requests : t.requests = s.requests
  slots : t.slots = s.slots
  config : t.config = s.config
  workerFailures : t.workerFailures = s.workerFailures
  memory : t.memory = s.memory
  latch : t.latch = s.latch
  presented : t.presented = s.presented

theorem KeepsInputs.refl (s : State) : KeepsInputs s s := ⟨rfl, rfl, rfl, rfl, rfl, rfl, rfl, rfl⟩

theorem KeepsInputs.trans {s t u : State} (h : KeepsInputs s t) (h' : KeepsInputs t u) : KeepsInputs s u :=
  ⟨h'.1.trans h.1, h'.2.trans h.2, h'.3.trans h.3, h'.4.trans h.4, h'.5.trans h.5, h'.6.trans h.6, h'.7.trans h.7,
    h'.8.trans h.8⟩

theorem startFrameStep_keeps (s : State) : KeepsInputs s (startFrameStep s) := ⟨rfl, rfl, rfl, rfl, rfl, rfl, rfl, rfl⟩

theorem captureAndDecode_keeps (s : State) : KeepsInputs s (captureAndDecode s) := by
  unfold captureAndDecode warnReserved
  simp only
  split <;> exact ⟨rfl, rfl, rfl, rfl, rfl, rfl, rfl, rfl⟩

theorem latchMode_keeps (mode : DisplayMode) (s : State) : KeepsInputs s (latchMode mode s) := by
  unfold latchMode
  split <;> exact ⟨rfl, rfl, rfl, rfl, rfl, rfl, rfl, rfl⟩

theorem clampWidth_keeps (s : State) : KeepsInputs s (clampWidth s) := by
  unfold clampWidth
  split <;> exact ⟨rfl, rfl, rfl, rfl, rfl, rfl, rfl, rfl⟩

theorem clampHeight_keeps (s : State) : KeepsInputs s (clampHeight s) := by
  unfold clampHeight
  split <;> exact ⟨rfl, rfl, rfl, rfl, rfl, rfl, rfl, rfl⟩

theorem resolveGeometry_keeps (s : State) : KeepsInputs s (resolveGeometry s) := by
  unfold resolveGeometry
  refine KeepsInputs.trans ?_ (clampHeight_keeps _)
  refine KeepsInputs.trans ?_ (clampWidth_keeps _)
  constructor <;> simp [sequenceInterlace]

theorem placeFrame_keeps (s : State) : KeepsInputs s (placeFrame s) := by
  constructor <;> simp [placeFrame, warnDropped]

theorem startPool_keeps (s : State) : KeepsInputs s (startPool s) := by
  unfold startPool
  simp only
  split <;> exact ⟨rfl, rfl, rfl, rfl, rfl, rfl, rfl, rfl⟩

theorem dispatch_keeps (s : State) : KeepsInputs s (dispatch s) :=
  (startPool_keeps s).trans ⟨rfl, rfl, rfl, rfl, rfl, rfl, rfl, rfl⟩

theorem blankFrame_keeps (s : State) : KeepsInputs s (blankFrame s) := by
  unfold blankFrame
  split <;> exact ⟨rfl, rfl, rfl, rfl, rfl, rfl, rfl, rfl⟩

theorem activeFrame_keeps (s : State) : KeepsInputs s (activeFrame s) := ⟨rfl, rfl, rfl, rfl, rfl, rfl, rfl, rfl⟩

theorem skip_keeps (code : SkipCode) (s : State) : KeepsInputs s (skip code s) :=
  ⟨rfl, rfl, rfl, rfl, rfl, rfl, rfl, rfl⟩

theorem raiseFatal_keeps (code : FatalCode) (s : State) : KeepsInputs s (raiseFatal code s) :=
  ⟨rfl, rfl, rfl, rfl, rfl, rfl, rfl, rfl⟩

/-- How the part of a normal `begin_frame` after the geometry ends: Skip S2, a blank frame, or an active one. -/
theorem finishBegin_cases (s : State) :
    (s.frame.isBlank = true ∧ blankSkips s = true ∧ finishBegin s = skip .s2 s) ∨
      (s.frame.isBlank = true ∧ blankSkips s = false ∧ finishBegin s = dispatch (blankFrame s)) ∨
      (s.frame.isBlank = false ∧ finishBegin s = dispatch (activeFrame s)) := by
  unfold finishBegin
  cases s.frame.isBlank <;> cases blankSkips s <;> simp

/-- How a normal `begin_frame` ends: Fatal F1, Skip S1, or a frame that is placed. -/
theorem normalBegin_cases (s : State) :
    (activeCount s.params (resolveGeometry s).frame > s.params.maxH ∧
        normalBegin s = raiseFatal .f1 (resolveGeometry s)) ∨
      (activeCount s.params (resolveGeometry s).frame ≤ s.params.maxH ∧
        activeCount s.params (resolveGeometry s).frame < 0 ∧ normalBegin s = skip .s1 (resolveGeometry s)) ∨
      (activeCount s.params (resolveGeometry s).frame ≤ s.params.maxH ∧
        0 ≤ activeCount s.params (resolveGeometry s).frame ∧
        normalBegin s = finishBegin (placeFrame (resolveGeometry s))) := by
  unfold normalBegin
  simp only [(resolveGeometry_keeps s).params]
  by_cases h1 : activeCount s.params (resolveGeometry s).frame > s.params.maxH
  · exact .inl ⟨h1, by simp [h1]⟩
  · by_cases h2 : activeCount s.params (resolveGeometry s).frame < 0
    · exact .inr (.inl ⟨by omega, h2, by rw [if_neg h1, if_pos h2]⟩)
    · exact .inr (.inr ⟨by omega, by omega, by rw [if_neg h1, if_neg h2]⟩)

/-- How a fast `begin_frame` ends: one of its Skips, or a frame. -/
theorem fastBegin_cases (s : State) :
    (∃ code, (code = .s3 ∨ code = .s4 ∨ code = .s5) ∧ fastBegin s = skip code (s.withFrame (resolveFast s.frame))) ∨
      fastBegin s =
        dispatch ((clampFastHeight (clampFastWidth (s.withFrame (resolveFast s.frame)))).withOut []) := by
  unfold fastBegin
  simp only
  split
  · exact .inl ⟨_, .inl rfl, rfl⟩
  · split
    · exact .inl ⟨_, .inr (.inl rfl), rfl⟩
    · split
      · exact .inl ⟨_, .inr (.inr rfl), rfl⟩
      · exact .inr rfl

theorem clampFastWidth_keeps (s : State) : KeepsInputs s (clampFastWidth s) := by
  unfold clampFastWidth
  split <;> constructor <;> simp

theorem clampFastHeight_keeps (s : State) : KeepsInputs s (clampFastHeight s) := by
  unfold clampFastHeight
  split <;> constructor <;> simp

theorem fastClamps_keep (s : State) : KeepsInputs s (clampFastHeight (clampFastWidth s)) :=
  (clampFastWidth_keeps s).trans (clampFastHeight_keeps _)

/-- A normal `begin_frame` after the latch keeps the inputs. -/
theorem normalBegin_keeps (s : State) : KeepsInputs s (normalBegin s) := by
  rcases normalBegin_cases s with ⟨-, e⟩ | ⟨-, -, e⟩ | ⟨-, -, e⟩ <;> rw [e]
  · exact (resolveGeometry_keeps s).trans (raiseFatal_keeps _ _)
  · exact (resolveGeometry_keeps s).trans (skip_keeps _ _)
  · refine (resolveGeometry_keeps s).trans ((placeFrame_keeps _).trans ?_)
    rcases finishBegin_cases (placeFrame (resolveGeometry s)) with ⟨-, -, e⟩ | ⟨-, -, e⟩ | ⟨-, e⟩ <;> rw [e]
    · exact skip_keeps _ _
    · exact (blankFrame_keeps _).trans (dispatch_keeps _)
    · exact (activeFrame_keeps _).trans (dispatch_keeps _)

/-- A fast `begin_frame` after the latch keeps the inputs. -/
theorem fastBegin_keeps (s : State) : KeepsInputs s (fastBegin s) := by
  have hw : KeepsInputs s (s.withFrame (resolveFast s.frame)) := ⟨rfl, rfl, rfl, rfl, rfl, rfl, rfl, rfl⟩
  rcases fastBegin_cases s with ⟨code, -, e⟩ | e <;> rw [e]
  · exact hw.trans (skip_keeps _ _)
  · refine hw.trans ((fastClamps_keep _).trans (KeepsInputs.trans ?_ (dispatch_keeps _)))
    exact ⟨rfl, rfl, rfl, rfl, rfl, rfl, rfl, rfl⟩

/-- The state `begin_frame` starts its display path from: captured, decoded, latched. -/
def captured (s : State) : State :=
  latchMode (captureAndDecode (startFrameStep s)).sampled.displayMode (captureAndDecode (startFrameStep s))

/-- Up to the latch, `begin_frame` keeps the inputs. -/
theorem captured_keeps (s : State) : KeepsInputs s (captured s) :=
  (startFrameStep_keeps s).trans ((captureAndDecode_keeps _).trans (latchMode_keeps _ _))

/-- Up to the latch, the configuration is sampled, the registers captured and decoded. -/
theorem captured_samples (s : State) :
    (captured s).sampled = s.config ∧ (captured s).reg = s.slots ∧
      (captured s).frame = decodeRegs s.params s.slots ∧ (captured s).scan = ⟨.begin, 0, 0⟩ ∧
      (captured s).draws = Config.nextDraws s.draws ∧ (captured s).fatal = s.fatal := by
  unfold captured latchMode
  split <;> simp only [captureAndDecode, warnReserved] <;> split <;> simp [startFrameStep, captureRegs]

/-- `begin_frame` takes the path of the display mode the host has set. -/
theorem beginFrame_eq (s : State) :
    beginFrame s = if s.config.displayMode = .normal then normalBegin (captured s) else fastBegin (captured s) := by
  have h : (captured s).sampled.displayMode = s.config.displayMode := by rw [(captured_samples s).1]
  change (match (captured s).sampled.displayMode with
    | .normal => normalBegin (captured s)
    | .rawColor | .depth | .coverage => fastBegin (captured s)) = _
  rw [h]
  cases s.config.displayMode <;> rfl

/-- `begin_frame` keeps the inputs. -/
theorem beginFrame_keeps (s : State) : KeepsInputs s (beginFrame s) := by
  rw [beginFrame_eq]
  split
  · exact (captured_keeps s).trans (normalBegin_keeps _)
  · exact (captured_keeps s).trans (fastBegin_keeps _)

end Sys2Proof.Machine
end

