-- ==== Sys2Proof/Laws/Guards.lean ====
section
/-! SUPPORT. What each guard, the operand word of a request, and one step can answer: said once, so that no later proof unfolds
them. -/

namespace Sys2Proof.Machine

/-- A block operation answers a next state exactly when the fatal mark is clear, and then its effect. -/
theorem blockOperation_next_iff {f : State → State} {s t : State} :
    blockOperation f s = .next t ↔ s.fatal = false ∧ f s = t := by
  unfold blockOperation; cases s.fatal <;> simp

/-- A block operation whose fatal mark is clear takes its effect. -/
theorem blockOperation_clear (f : State → State) {s : State} (h : s.fatal = false) :
    blockOperation f s = .next (f s) := by simp [blockOperation, h]

/-- A phase operation answers a next state exactly when the fatal mark is clear and the phase is its own. -/
theorem phaseOperation_next_iff {p : Phase} {f : State → State} {s t : State} :
    phaseOperation p f s = .next t ↔ s.fatal = false ∧ s.scan.phase = p ∧ f s = t := by
  unfold phaseOperation; cases s.fatal <;> by_cases h : s.scan.phase = p <;> simp [h]

/-- A phase operation in its phase takes its effect. -/
theorem phaseOperation_clear (f : State → State) {p : Phase} {s : State} (h : s.fatal = false)
    (hp : s.scan.phase = p) : phaseOperation p f s = .next (f s) := by simp [phaseOperation, h, hp]

/-- A setup operation answers a next state exactly when the fatal mark is clear and no frame is between dispatch and
present. -/
theorem setupOperation_next_iff {f : State → State} {s t : State} :
    setupOperation f s = .next t ↔
      s.fatal = false ∧ s.scan.phase ≠ .render ∧ s.scan.phase ≠ .present ∧ f s = t := by
  unfold setupOperation
  cases s.fatal <;> by_cases h : s.scan.phase = .render <;> by_cases h' : s.scan.phase = .present <;> simp_all

/-- A setup operation outside the render and present phases takes its effect. -/
theorem setupOperation_clear (f : State → State) {s : State} (h : s.fatal = false) (hr : s.scan.phase ≠ .render)
    (hp : s.scan.phase ≠ .present) : setupOperation f s = .next (f s) := by simp [setupOperation, h, hr, hp]

/-- A host store answers a next state exactly when it may land and its pixel exists, and then only the memory changes. -/
theorem execStore_next_iff {st : HostStore} {s t : State} :
    execStore st s = .next t ↔
      storeAllowed s = true ∧ ∃ m, storedMemory s.params s.memory st = some m ∧ s.withMemory m = t := by
  unfold execStore
  cases storeAllowed s
  · simp
  · cases storedMemory s.params s.memory st <;> simp

/-- The operand word holds the number, or the greatest one it can hold. -/
theorem operandWord_toNat (n : Nat) : (operandWord n).toNat = min n (2 ^ 32 - 1) := by
  simp only [operandWord, BitVec.toNat_ofNat]; omega

/-- The request of a worker count reads back as the count, cut to the greatest the request holds. -/
theorem decode_encode_numWorkers (n : Nat) :
    decode (encode (.cfg (.numWorkers n))) = .ok (.cfg (.numWorkers (min n (2 ^ 32 - 1)))) := by
  rw [← operandWord_toNat n]; rfl

/-- The request of a host store reads back as the store, its index cut to the largest the request holds. -/
theorem decodeStore_encodeStore (st : HostStore) :
    decodeStore (encodeStore st) = some (match st with
      | .mem16 i v => .mem16 (min i (2 ^ 32 - 1)) v
      | .mem32 i v => .mem32 (min i (2 ^ 32 - 1)) v
      | .hid i h => .hid (min i (2 ^ 32 - 1)) h) := by
  cases st with
  | mem16 i v => simp [encodeStore, decodeStore, operandWord_toNat, Nat.lt_of_le_of_lt (Nat.mod_le _ _) v.isLt]
  | mem32 i v => simp [encodeStore, decodeStore, operandWord_toNat]
  | hid i h => simp [encodeStore, decodeStore, operandWord_toNat, Nat.lt_of_le_of_lt (Nat.mod_le _ _) h.isLt]

/-- One step answers a next state in three ways: nothing pending, a host store, or a decoded operation. -/
theorem step_next_iff {s t : State} :
    step s = .next t ↔
      (s.requests = [] ∧ s = t) ∨
        ∃ r rest, s.requests = r :: rest ∧
          ((∃ st, decodeStore r = some st ∧ execStore st (s.withRequests rest) = .next t) ∨
            (decodeStore r = none ∧ ∃ i, decode r = .ok i ∧ exec i (s.withRequests rest) = .next t)) := by
  unfold step takeRequest runRequest
  cases s.requests with
  | nil => simp
  | cons r rest =>
    cases hst : decodeStore r with
    | some st => simp [hst]
    | none => cases hd : decode r <;> simp [hst, hd]

end Sys2Proof.Machine
end

