-- ==== Sys2Proof/Laws/Memory.lean ====
section
/-! SUPPORT. Laws of memory: every operation keeps its form, a byte written is the byte read, and the rest stays. -/

namespace Sys2Proof.Machine

/-- The four parts of the form of memory. -/
theorem Memory.wf_iff {n : Nat} {m : Memory} :
    m.wf n = true ↔ sparseWf 0 m.bytes = true ∧ sparseWf 0 m.hidden = true ∧
      (∀ e ∈ m.bytes, e.1 < n) ∧ ∀ e ∈ m.hidden, e.1 < n / 2 := by
  simp only [Memory.wf, Bool.and_eq_true, List.all_eq_true, decide_eq_true_eq]
  tauto

/-- The empty memory has the form. -/
theorem Memory.wf_empty (n : Nat) : ({} : Memory).wf n = true := rfl

/-- A byte write inside the space keeps the form. -/
theorem Memory.wf_writeByte {n : Nat} {m : Memory} (h : m.wf n = true) {a : Nat} (ha : a < n) (b : Byte) :
    (writeByte m a b).wf n = true := by
  rw [Memory.wf_iff] at h ⊢
  refine ⟨sparseWf_put _ _ _ h.1, h.2.1, fun e he => ?_, h.2.2.2⟩
  rcases mem_put _ _ _ e he with hm | ⟨rfl, -⟩
  · exact h.2.2.1 e hm
  · exact ha

/-- A hidden write inside the space keeps the form. -/
theorem Memory.wf_writeHidden {n : Nat} {m : Memory} (h : m.wf n = true) {i : Nat} (hi : i < n / 2) (v : BitVec 2) :
    (writeHidden m i v).wf n = true := by
  rw [Memory.wf_iff] at h ⊢
  refine ⟨h.1, sparseWf_put _ _ _ h.2.1, h.2.2.1, fun e he => ?_⟩
  rcases mem_put _ _ _ e he with hm | ⟨rfl, -⟩
  · exact h.2.2.2 e hm
  · exact hi

/-- A store of bytes inside the space keeps the form. -/
theorem Memory.wf_writeBytes {n : Nat} :
    ∀ {bs : List Byte} {m : Memory} {a : Nat}, m.wf n = true → a + bs.length ≤ n → (writeBytes m a bs).wf n = true
  | [], _, _, h, _ => h
  | b :: rest, m, a, h, ha => by
    have hl : a + (rest.length + 1) ≤ n := by simpa using ha
    rw [writeBytes]
    exact Memory.wf_writeBytes (bs := rest) (Memory.wf_writeByte h (a := a) (by omega) b) (by omega)

/-- Reading one byte after a byte write. -/
theorem readByte_writeByte {n : Nat} {m : Memory} (h : m.wf n = true) (a b : Nat) (v : Byte) :
    readByte (writeByte m a v) b = if b = a then v else readByte m b :=
  sparseGet_put _ _ _ _ (Memory.wf_iff.1 h).1

/-- A byte write leaves the hidden values alone. -/
@[simp] theorem writeByte_hidden (m : Memory) (a : Nat) (v : Byte) : (writeByte m a v).hidden = m.hidden := rfl

/-- A hidden write leaves the bytes alone. -/
@[simp] theorem writeHidden_bytes (m : Memory) (i : Nat) (v : BitVec 2) : (writeHidden m i v).bytes = m.bytes := rfl

/-- Reading one hidden value after a hidden write. -/
theorem readHiddenCell_writeHidden {n : Nat} {m : Memory} (h : m.wf n = true) (i j : Nat) (v : BitVec 2) :
    readHiddenCell (writeHidden m i v) j = if j = i then v else readHiddenCell m j :=
  sparseGet_put _ _ _ _ (Memory.wf_iff.1 h).2.1

/-- A store of bytes leaves the hidden values alone. -/
@[simp] theorem writeBytes_hidden : ∀ (m : Memory) (a : Nat) (bs : List Byte), (writeBytes m a bs).hidden = m.hidden
  | _, _, [] => rfl
  | m, a, b :: rest => by rw [writeBytes, writeBytes_hidden]; rfl

/-- A store of bytes leaves every byte outside it alone. -/
theorem readByte_writeBytes_outside : ∀ (bs : List Byte) (m : Memory) (a b : Nat),
    (b < a ∨ a + bs.length ≤ b) → readByte (writeBytes m a bs) b = readByte m b
  | [], _, _, _, _ => rfl
  | v :: rest, m, a, b, h => by
    have hl : b < a ∨ a + (rest.length + 1) ≤ b := by simpa using h
    rw [writeBytes, readByte_writeBytes_outside rest _ _ _ (by omega)]
    exact sparseGet_put_other _ _ (by omega) _

/-- A store of bytes is read back, one byte at a time. -/
theorem readByte_writeBytes_inside {n : Nat} : ∀ (bs : List Byte) (m : Memory) (a k : Nat) (hk : k < bs.length),
    m.wf n = true → a + bs.length ≤ n → readByte (writeBytes m a bs) (a + k) = bs[k]
  | v :: rest, m, a, 0, _, h, _ => by
    rw [writeBytes, readByte_writeBytes_outside rest _ _ _ (by omega)]
    simp [readByte_writeByte h]
  | v :: rest, m, a, k + 1, hk, h, hn => by
    have hl : a + (rest.length + 1) ≤ n := by simpa using hn
    have := readByte_writeBytes_inside rest (writeByte m a v) (a + 1) k (by simpa using hk)
      (Memory.wf_writeByte h (by omega) v) (by omega)
    rw [writeBytes, show a + (k + 1) = a + 1 + k by omega, this]
    rfl

/-- A host store keeps the form of memory. -/
theorem Memory.wf_storedMemory {P : Params} {m m' : Memory} {st : HostStore} (h : m.wf P.rdramSize = true)
    (hs : storedMemory P m st = some m') : m'.wf P.rdramSize = true := by
  cases st with
  | mem16 i v =>
    simp only [storedMemory, Option.ite_none_right_eq_some, Option.some.injEq] at hs
    obtain ⟨hi, rfl⟩ := hs
    exact Memory.wf_writeBytes h (by simp; omega)
  | mem32 i v =>
    simp only [storedMemory, Option.ite_none_right_eq_some, Option.some.injEq] at hs
    obtain ⟨hi, rfl⟩ := hs
    exact Memory.wf_writeBytes h (by simp; omega)
  | hid i v =>
    simp only [storedMemory, Option.ite_none_right_eq_some, Option.some.injEq] at hs
    obtain ⟨hi, rfl⟩ := hs
    exact Memory.wf_writeHidden h hi v

/-- The memory after reset has the form. -/
theorem Memory.wf_reset : State.reset.memory.wf State.reset.params.rdramSize = true := rfl

end Sys2Proof.Machine
end

