-- ==== Sys2Proof/Laws/PerInstr.lean ====
section
/-! SUPPORT. Facts about the encoding, one lemma per operation. -/

namespace Sys2Proof.Laws

/-- The STATUS bits a row of `spec/opcode_table.json` fixes: its mask and its match. -/
def tablePattern : Instr → Nat × Nat
  | .fmtBlank => (0x3, 0x0)
  | .fmtReserved => (0x3, 0x1)
  | .fetch5551 _ => (0x3, 0x2)
  | .fetch8888 _ => (0x3, 0x3)
  | .gdNone => (0xc, 0x0)
  | .gdDither => (0xc, 0x4)
  | .gdGamma => (0xc, 0x8)
  | .gdGammaDither => (0xc, 0xc)
  | .divotOff _ => (0x10, 0x0)
  | .divotOn _ => (0x10, 0x10)
  | .scanProgressive => (0x40, 0x0)
  | .scanInterlaced => (0x40, 0x40)
  | .aaMode00 => (0x300, 0x0)
  | .aaMode01 => (0x300, 0x100)
  | .aaMode10 => (0x300, 0x200)
  | .aaMode11 => (0x300, 0x300)
  | .resolvePass _ => (0x10000, 0x0)
  | .restore16 _ _ => (0x10003, 0x10002)
  | .restore32 _ _ => (0x10003, 0x10003)
  | .blend16 _ _ => (0x203, 0x2)
  | .blend32 _ _ => (0x203, 0x3)
  | .lerp => (0x0, 0x0)
  | .noLerp => (0x0, 0x0)
  | .hblankClip _ => (0x0, 0x0)
  | .pixelWrite => (0x0, 0x0)
  | .fetchState _ => (0x0, 0x0)
  | .scanline _ => (0x0, 0x0)
  | .wreg _ _ => (0x0, 0x0)
  | .cfg _ => (0x0, 0x0)
  | .frameStep => (0x0, 0x0)
  | .beginFrame => (0x0, 0x0)
  | .render => (0x0, 0x0)
  | .present => (0x0, 0x0)
  | .modeNormal => (0x0, 0x0)
  | .rawColor16 _ _ => (0x3, 0x2)
  | .rawColor32 _ _ => (0x3, 0x3)
  | .depth _ _ => (0x0, 0x0)
  | .coverage _ _ => (0x0, 0x0)

/-- The encoding of an operation is a request of four words whose STATUS word matches the operation's row. -/
def EncodedPattern.Statement (i : Instr) : Prop :=
  (encode i).length = 4 ∧ ((encode i).headD 0).toNat &&& (tablePattern i).1 = (tablePattern i).2

theorem EncodedPattern.fmtBlank : EncodedPattern.Statement .fmtBlank :=
  ⟨rfl, by simp [encode, request, tablePattern]⟩
theorem EncodedPattern.fmtReserved : EncodedPattern.Statement .fmtReserved :=
  ⟨rfl, by simp [encode, request, tablePattern]⟩
theorem EncodedPattern.fetch5551 (idx : Int) : EncodedPattern.Statement (.fetch5551 idx) :=
  ⟨rfl, by simp [encode, request, tablePattern]⟩
theorem EncodedPattern.fetch8888 (idx : Int) : EncodedPattern.Statement (.fetch8888 idx) :=
  ⟨rfl, by simp [encode, request, tablePattern]⟩
theorem EncodedPattern.gdNone : EncodedPattern.Statement .gdNone :=
  ⟨rfl, by simp [encode, request, tablePattern]⟩
theorem EncodedPattern.gdDither : EncodedPattern.Statement .gdDither :=
  ⟨rfl, by simp [encode, request, tablePattern]⟩
theorem EncodedPattern.gdGamma : EncodedPattern.Statement .gdGamma :=
  ⟨rfl, by simp [encode, request, tablePattern]⟩
theorem EncodedPattern.gdGammaDither : EncodedPattern.Statement .gdGammaDither :=
  ⟨rfl, by simp [encode, request, tablePattern]⟩
theorem EncodedPattern.divotOff (corner : Corner) : EncodedPattern.Statement (.divotOff corner) :=
  ⟨rfl, by simp [encode, request, tablePattern]⟩
theorem EncodedPattern.divotOn (corner : Corner) : EncodedPattern.Statement (.divotOn corner) :=
  ⟨rfl, by simp [encode, request, tablePattern]⟩
theorem EncodedPattern.scanProgressive : EncodedPattern.Statement .scanProgressive :=
  ⟨rfl, by simp [encode, request, tablePattern]⟩
theorem EncodedPattern.scanInterlaced : EncodedPattern.Statement .scanInterlaced :=
  ⟨rfl, by simp [encode, request, tablePattern]⟩
theorem EncodedPattern.aaMode00 : EncodedPattern.Statement .aaMode00 :=
  ⟨rfl, by simp [encode, request, tablePattern]⟩
theorem EncodedPattern.aaMode01 : EncodedPattern.Statement .aaMode01 :=
  ⟨rfl, by simp [encode, request, tablePattern]⟩
theorem EncodedPattern.aaMode10 : EncodedPattern.Statement .aaMode10 :=
  ⟨rfl, by simp [encode, request, tablePattern]⟩
theorem EncodedPattern.aaMode11 : EncodedPattern.Statement .aaMode11 :=
  ⟨rfl, by simp [encode, request, tablePattern]⟩
theorem EncodedPattern.resolvePass (slot : Slot) : EncodedPattern.Statement (.resolvePass slot) :=
  ⟨rfl, by simp [encode, request, tablePattern]⟩
theorem EncodedPattern.restore16 (slot : Slot) (line : Line) : EncodedPattern.Statement (.restore16 slot line) :=
  ⟨rfl, by simp [encode, request, tablePattern]⟩
theorem EncodedPattern.restore32 (slot : Slot) (line : Line) : EncodedPattern.Statement (.restore32 slot line) :=
  ⟨rfl, by simp [encode, request, tablePattern]⟩
theorem EncodedPattern.blend16 (slot : Slot) (line : Line) : EncodedPattern.Statement (.blend16 slot line) :=
  ⟨rfl, by simp [encode, request, tablePattern]⟩
theorem EncodedPattern.blend32 (slot : Slot) (line : Line) : EncodedPattern.Statement (.blend32 slot line) :=
  ⟨rfl, by simp [encode, request, tablePattern]⟩
theorem EncodedPattern.lerp : EncodedPattern.Statement .lerp :=
  ⟨rfl, by simp [encode, request, tablePattern]⟩
theorem EncodedPattern.noLerp : EncodedPattern.Statement .noLerp :=
  ⟨rfl, by simp [encode, request, tablePattern]⟩
theorem EncodedPattern.hblankClip (i : Nat) : EncodedPattern.Statement (.hblankClip i) :=
  ⟨rfl, by simp [encode, request, tablePattern]⟩
theorem EncodedPattern.pixelWrite : EncodedPattern.Statement .pixelWrite :=
  ⟨rfl, by simp [encode, request, tablePattern]⟩
theorem EncodedPattern.fetchState (y : Nat) : EncodedPattern.Statement (.fetchState y) :=
  ⟨rfl, by simp [encode, request, tablePattern]⟩
theorem EncodedPattern.scanline (y : Nat) : EncodedPattern.Statement (.scanline y) :=
  ⟨rfl, by simp [encode, request, tablePattern]⟩
theorem EncodedPattern.wreg (reg : RegName) (v : Word) : EncodedPattern.Statement (.wreg reg v) :=
  ⟨rfl, by simp [encode, request, tablePattern]⟩
theorem EncodedPattern.cfg (setting : CfgSetting) : EncodedPattern.Statement (.cfg setting) :=
  ⟨rfl, by simp [encode, request, tablePattern]⟩
theorem EncodedPattern.frameStep : EncodedPattern.Statement .frameStep :=
  ⟨rfl, by simp [encode, request, tablePattern]⟩
theorem EncodedPattern.beginFrame : EncodedPattern.Statement .beginFrame :=
  ⟨rfl, by simp [encode, request, tablePattern]⟩
theorem EncodedPattern.render : EncodedPattern.Statement .render :=
  ⟨rfl, by simp [encode, request, tablePattern]⟩
theorem EncodedPattern.present : EncodedPattern.Statement .present :=
  ⟨rfl, by simp [encode, request, tablePattern]⟩
theorem EncodedPattern.modeNormal : EncodedPattern.Statement .modeNormal :=
  ⟨rfl, by simp [encode, request, tablePattern]⟩
theorem EncodedPattern.rawColor16 (y x : Nat) : EncodedPattern.Statement (.rawColor16 y x) :=
  ⟨rfl, by simp [encode, request, tablePattern]⟩
theorem EncodedPattern.rawColor32 (y x : Nat) : EncodedPattern.Statement (.rawColor32 y x) :=
  ⟨rfl, by simp [encode, request, tablePattern]⟩
theorem EncodedPattern.depth (y x : Nat) : EncodedPattern.Statement (.depth y x) :=
  ⟨rfl, by simp [encode, request, tablePattern]⟩
theorem EncodedPattern.coverage (y x : Nat) : EncodedPattern.Statement (.coverage y x) :=
  ⟨rfl, by simp [encode, request, tablePattern]⟩

end Sys2Proof.Laws
end

