-- ==== Sys2Proof/Laws/Position.lean ====
section
/-! SUPPORT. What a move of the scan position, a stored pixel, a reset and a read of the sink can do, each said once. -/

namespace Sys2Proof.Machine

/-! ### The scan position -/

/-- A pixel is inside the frame exactly when its scanline and its number are. -/
theorem insideFrame_iff {s : State} {y i : Nat} :
    insideFrame s y i = true ↔ y < scanlineCount s ∧ i < lineLength s := by
  simp [insideFrame]

/-- A pixel is outside the frame exactly when its scanline or its number is. -/
theorem insideFrame_eq_false_iff {s : State} {y i : Nat} :
    insideFrame s y i = false ↔ ¬(y < scanlineCount s ∧ i < lineLength s) := by
  rw [← insideFrame_iff, Bool.not_eq_true]

/-- A move to a scanline changes the scan position at most, and its phase not at all. -/
theorem moveToScanline_cases (y : Nat) (s : State) :
    (y < scanlineCount s ∧ moveToScanline y s = s.withScan { s.scan with y := y, i := 0 }) ∨
      (¬y < scanlineCount s ∧ moveToScanline y s = s) := by
  by_cases h : y < scanlineCount s <;> simp [moveToScanline, h]

/-- A move to a pixel changes the scan position at most, and its phase and scanline not at all. -/
theorem moveToPixel_cases (i : Nat) (s : State) :
    (i < lineLength s ∧ moveToPixel i s = s.withScan { s.scan with i := i }) ∨
      (¬i < lineLength s ∧ moveToPixel i s = s) := by
  by_cases h : i < lineLength s <;> simp [moveToPixel, h]

/-- The active lines are in their range exactly when they lie from 0 to `MAX_H`. -/
theorem activeLegal_iff {s : State} :
    s.activeLegal = true ↔ 0 ≤ s.frame.vactive ∧ s.frame.vactive ≤ s.params.maxH := by
  simp [State.activeLegal]

/-! ### A stored pixel -/

/-- The pixel write stores one word and advances inside the frame, and does nothing outside it. -/
theorem storePixel_cases (s : State) :
    (insideFrame s s.scan.y s.scan.i = true ∧
      storePixel s = (s.withOut (writeOut s.params (outRow s.frame s.scan.y) (s.frame.hStart + s.scan.i)
        (latchedPixel s.latch) s.out)).withScan { s.scan with i := s.scan.i + 1 }) ∨
    (insideFrame s s.scan.y s.scan.i = false ∧ storePixel s = s) := by
  cases h : insideFrame s s.scan.y s.scan.i <;> simp [storePixel, h]

/-- A fast pixel changes the buffer, the workers and the scan position inside the frame, and nothing outside it. -/
theorem fastPixel_cases (y x : Nat) (c : Colour) (s : State) :
    (insideFrame s y x = true ∧
      fastPixel y x c s =
        (((s.withOut (fastPixel y x c s).out).withWorkers (fastPixel y x c s).workers).withScan
          { s.scan with y := y, i := x + 1 })) ∨
    (insideFrame s y x = false ∧ fastPixel y x c s = s) := by
  cases h : insideFrame s y x
  · exact .inr ⟨rfl, by simp [fastPixel, h]⟩
  · refine .inl ⟨rfl, ?_⟩
    unfold fastPixel
    rw [if_pos h]
    rfl

/-! ### Reset and the sink -/

/-- A reset keeps the form of the state: what it keeps of memory was in its form, and everything else is empty. -/
theorem resetBlock_wf {s : State} (h : s.wf = true) : (resetBlock s).wf = true := by
  simp only [State.wf, Bool.and_eq_true] at h ⊢
  exact ⟨⟨⟨h.1.1.1, rfl⟩, rfl⟩, rfl⟩

/-- The sink is answered exactly in the interval that a present opens, and then with what `Out` holds. -/
theorem sinkRead_next_iff {s : State} {row col : Nat} {w : Word} :
    sinkRead s row col = .next w ↔
      s.scan.phase = .idle ∧ s.handedOver = true ∧ readOut s.params s.out row col = w := by
  unfold sinkRead
  by_cases h : s.scan.phase = .idle ∧ s.handedOver = true
  · simp [h]
  · simp only [if_neg h]
    exact ⟨nofun, fun ⟨a, b, _⟩ => absurd ⟨a, b⟩ h⟩

/-- Outside that interval the sink is refused. -/
theorem sinkRead_refused {s : State} (row col : Nat) (h : ¬(s.scan.phase = .idle ∧ s.handedOver = true)) :
    sinkRead s row col = .refused .sinkReadDuringFrameStep := by
  simp [sinkRead, h]

/-- The sink reads the same of two states with the same buffer in the same interval. -/
theorem sinkRead_congr {s t : State} (row col : Nat) (hp : t.params = s.params) (ho : t.out = s.out)
    (hs : t.scan.phase = s.scan.phase) (hh : t.handedOver = s.handedOver) : sinkRead t row col = sinkRead s row col := by
  simp [sinkRead, hp, ho, hs, hh]

end Sys2Proof.Machine
end

