-- ==== Sys2Proof/Tests/Slice0.lean ====
section
/-! SUPPORT. The model's own tests: the operand checks, decoding of words written from the specification's encodings, one
small step per operation with the specification's worked example, and for every statement with hypotheses a state that
meets them. -/

namespace Sys2Proof.Tests

open Sys2Proof Sys2Proof.Machine

/-! ### Operand checks -/

theorem test_index_above_range_refused : (Instr.fetch5551 (2 ^ 27)).wellFormed = false := by decide
theorem test_index_below_range_refused : (Instr.fetch8888 (-(2 ^ 27) - 1)).wellFormed = false := by decide
theorem test_index_lowest_accepted : (Instr.fetch8888 (-(2 ^ 27))).wellFormed = true := by decide
theorem test_clip_position_refused : (Instr.hblankClip (2 ^ 16)).wellFormed = false := by decide
theorem test_fetch_state_position_refused : (Instr.fetchState (2 ^ 16)).wellFormed = false := by decide
theorem test_scanline_position_refused : (Instr.scanline (2 ^ 16)).wellFormed = false := by decide
theorem test_worker_count_refused : (Instr.cfg (.numWorkers (2 ^ 32))).wellFormed = false := by decide
theorem test_depth_address_refused : (Instr.cfg (.zbAddress (2 ^ 24))).wellFormed = false := by decide
theorem test_raw16_line_refused : (Instr.rawColor16 (2 ^ 16) 0).wellFormed = false := by decide
theorem test_raw32_pixel_refused : (Instr.rawColor32 0 (2 ^ 16)).wellFormed = false := by decide
theorem test_depth_line_refused : (Instr.depth (2 ^ 16) 0).wellFormed = false := by decide
theorem test_coverage_pixel_refused : (Instr.coverage 0 (2 ^ 16)).wellFormed = false := by decide

/-! ### Decoding

STATUS words written bit by bit from `30_encoding.md` R111: [1:0] type, [2] gamma-dither, [3] gamma, [4] divot, [6] serrate,
[9:8] aa_mode, [16] dither filter. -/

theorem test_decode_blank : decode [0b00, 0, 0, 0] = .ok .fmtBlank := by decide
theorem test_decode_reserved : decode [0b01, 0, 0, 0] = .ok .fmtReserved := by decide
theorem test_decode_fetch16 : decode [0b10, 0, 0xFFFFFFFF, 0] = .ok (.fetch5551 (-1)) := by decide
theorem test_decode_fetch32 : decode [0b11, 0, 7, 0] = .ok (.fetch8888 7) := by decide
theorem test_decode_gd_none : decode [0b0010, 5, 0, 0] = .ok .gdNone := by decide
theorem test_decode_gd_dither : decode [0b0110, 5, 0, 0] = .ok .gdDither := by decide
theorem test_decode_gd_gamma : decode [0b1010, 5, 0, 0] = .ok .gdGamma := by decide
theorem test_decode_gd_both : decode [0b1110, 5, 0, 0] = .ok .gdGammaDither := by decide
theorem test_decode_divot_on : decode [0b10010, 4, 3, 0] = .ok (.divotOn .c11) := by decide
theorem test_decode_divot_off : decode [0b00010, 4, 1, 0] = .ok (.divotOff .c01) := by decide
theorem test_decode_interlaced : decode [0b1000010, 6, 0, 0] = .ok .scanInterlaced := by decide
theorem test_decode_progressive : decode [0b0000010, 6, 0, 0] = .ok .scanProgressive := by decide
theorem test_decode_aa00 : decode [0b0000000010, 1, 0, 0] = .ok .aaMode00 := by decide
theorem test_decode_aa01 : decode [0b0100000010, 1, 0, 0] = .ok .aaMode01 := by decide
theorem test_decode_aa10 : decode [0b1000000010, 1, 0, 0] = .ok .aaMode10 := by decide
theorem test_decode_aa11 : decode [0b1100000010, 1, 0, 0] = .ok .aaMode11 := by decide
theorem test_decode_pass : decode [0b00000000000000010, 2, 2, 0] = .ok (.resolvePass .right) := by decide
theorem test_decode_restore16 : decode [0b10000000000000010, 2, 0, 1] = .ok (.restore16 .left .next) := by decide
theorem test_decode_restore32 : decode [0b10000000000000011, 2, 1, 0] = .ok (.restore32 .centre .current) := by decide
theorem test_decode_blend16 : decode [0b0000000010, 3, 1, 0] = .ok (.blend16 .centre .current) := by decide
theorem test_decode_blend32 : decode [0b0000000011, 3, 2, 1] = .ok (.blend32 .right .next) := by decide
theorem test_decode_lerp : decode [0b1000000010, 8, 0, 0] = .ok .lerp := by decide
theorem test_decode_no_lerp : decode [0b1100000010, 9, 0, 0] = .ok .noLerp := by decide
theorem test_decode_clip : decode [0, 10, 8, 0] = .ok (.hblankClip 8) := by decide
theorem test_decode_write : decode [0, 11, 0, 0] = .ok .pixelWrite := by decide
theorem test_decode_fetch_state : decode [0, 12, 3, 0] = .ok (.fetchState 3) := by decide
theorem test_decode_scanline : decode [0, 13, 100, 0] = .ok (.scanline 100) := by decide
theorem test_decode_wreg : decode [0, 14, 13, 0x400] = .ok (.wreg .yScale 0x400) := by decide
theorem test_decode_cfg : decode [0, 15, 0, 2] = .ok (.cfg (.displayMode .depth)) := by decide
theorem test_decode_frame : decode [0, 16, 0, 0] = .ok .frameStep := by decide
theorem test_decode_begin : decode [0, 17, 0, 0] = .ok .beginFrame := by decide
theorem test_decode_render : decode [0, 18, 0, 0] = .ok .render := by decide
theorem test_decode_present : decode [0, 19, 0, 0] = .ok .present := by decide
theorem test_decode_normal : decode [0, 20, 0, 0] = .ok .modeNormal := by decide
theorem test_decode_raw16 : decode [0b10, 7, 2, 3] = .ok (.rawColor16 2 3) := by decide
theorem test_decode_raw32 : decode [0b11, 7, 2, 3] = .ok (.rawColor32 2 3) := by decide
theorem test_decode_depth : decode [0, 21, 2, 3] = .ok (.depth 2 3) := by decide
theorem test_decode_coverage : decode [0, 22, 2, 3] = .ok (.coverage 2 3) := by decide
theorem test_decode_wrong_length : decode [0, 0, 0] = .error .wrongLength := by decide
theorem test_decode_unknown_stage : decode [0, 23, 0, 0] = .error .unknownStage := by decide
theorem test_decode_no_operation : decode [0x10000, 2, 0, 0] = .error .noOperation := by decide
theorem test_decode_bad_operand : decode [0b10, 4, 4, 0] = .error .badOperand := by decide
theorem test_decode_store : decodeStore [0, 23, 5, 0xCB25] = some (.mem16 5 0xCB25) := by decide
-- An index past 32 bits falls on no other pixel: the store faults as one outside memory does.
theorem test_store_index_past_32_bits :
    (match step { params := { rdramSize := 64 }, requests := [encodeStore (.mem16 (2 ^ 32 + 1) 7)] } with
      | .fault .hostStoreOutsideMemory => true
      | _ => false) = true := by decide
-- A worker count past 32 bits does not become 0, which would mean HW_THREADS.
theorem test_worker_count_past_32_bits :
    decode (encode (.cfg (.numWorkers (2 ^ 32)))) = .ok (.cfg (.numWorkers (2 ^ 32 - 1))) := by decide
theorem test_index_past_32_bits_refused : decode (encode (.fetch5551 (2 ^ 32))) = .error .badOperand := by decide
theorem test_position_past_32_bits_refused : decode (encode (.scanline (2 ^ 32))) = .error .badOperand := by decide
theorem test_store_encoding : decodeStore (encodeStore (.hid 9 3)) = some (.hid 9 3) := by decide

/-! ### Small states -/

/-- A block of an 8 by 6 raster and 64 bytes of memory. -/
def tiny : Params := { maxW := 8, maxH := 6, rdramSize := 64 }

/-- The tiny block, idle after reset. -/
def idleTiny : State := { params := tiny }

/-- The stores of the host, one after another. -/
def stored (s : State) (l : List HostStore) : State :=
  l.foldl (fun s st => match execStore st s with | .next t => t | _ => s) s

/-- The state an operation leaves, or the state before it. -/
def after (i : Instr) (s : State) : State :=
  match exec i s with
  | .next t => t
  | _ => s

/-- The tiny block in the render phase of a 2 by 1 normal frame at the top left. -/
def rendering : State :=
  { params := tiny
    scan := ⟨.render, 0, 0⟩
    frame := { fmt := .rgba5551, isBlank := false, hres := 2, vres := 1, validh := true, marginHi := 2, w := 4, xAdd := 0x400,
               yAdd := 0x400 } }

/-- The tiny block in the render phase of a 2 by 1 raw-colour frame. -/
def renderingFast : State :=
  { rendering with
    sampled := { displayMode := .rawColor }
    frame := { rendering.frame with hresRaw := 2, vresRaw := 1 } }

/-- The tiny block about to begin a normal 2 by 2 frame: hs 108, he 110, vs 34, ve 38, V_SYNC 36, scales of one. -/
def beginning : State :=
  { idleTiny with
    slots := { status := 0x2, width := 4, vSync := 36, hStart := 0x006C006E, vStart := 0x00220026, xScale := 0x400, yScale := 0x400 } }

/-- The same in a fast mode. -/
def beginningFast : State := { beginning with config := { displayMode := .rawColor } }

/-! ### One step per operation, with the specification's examples -/

-- `42_fetch_coverage_resolve.md` R269: 0xCB25 with h = 3 is (200, 96, 144, 7); an index out of range gives (0, 0, 0, 0).
theorem test_fetch5551 :
    (after (.fetch5551 1) (stored idleTiny [.mem16 1 0xCB25, .hid 1 3])).latch.fetched = ⟨200, 96, 144, 7⟩ := by decide
theorem test_fetch5551_outside : (after (.fetch5551 (-1)) idleTiny).latch.fetched = ⟨0, 0, 0, 0⟩ := by decide
-- R270: 0xC8643240 is (200, 100, 50, 2).
theorem test_fetch8888 :
    (after (.fetch8888 2) (stored idleTiny [.mem32 2 0xC8643240])).latch.fetched = ⟨200, 100, 50, 2⟩ := by decide

/-- The memory of R272's example: stride 4, centre index 5, every other index 0 to 11 alike. -/
def restoreExample : State :=
  { stored idleTiny ((List.range 12).map fun i => .mem16 i (if i = 5 then 0x0A8B else 0x1287)) with
    frame := { w := 4 }, latch := { fetchedIdx := 5, fetched := ⟨8, 80, 40, 7⟩, fs := .fs1 } }

-- R272: (16, 80, 32, 7) with fs = 0 and (15, 80, 33, 7) with fs = 1.
theorem test_restore16_state0 :
    (after (.restore16 .centre .current) restoreExample).latch.centre = ⟨16, 80, 32, 7⟩ := by decide +kernel
theorem test_restore16_state1 :
    (after (.restore16 .centre .next) restoreExample).latch.centre = ⟨15, 80, 33, 7⟩ := by decide +kernel

-- R273: (16, 16, 24, 7).
theorem test_restore32 :
    (after (.restore32 .left .current)
      { stored idleTiny ((List.range 12).map fun i => .mem32 i (if i = 5 then 0x081820E0 else 0x101010E0)) with
        frame := { w := 4 }, latch := { fetchedIdx := 5, fetched := ⟨8, 24, 32, 7⟩ } }).latch.left = ⟨16, 16, 24, 7⟩ := by
  decide +kernel

/-- The memory of R274's example: stride 5, centre index 6. -/
def blendExample : State :=
  { stored idleTiny [.mem16 0 0xC221, .mem16 2 0xA521, .mem16 4 0x4421, .mem16 12 0xF7BD, .mem16 6 0x8420, .hid 0 3, .hid 2 3,
      .hid 4 3, .hid 12 3, .hid 6 3] with
    frame := { w := 5 }, latch := { fetchedIdx := 6, fetched := ⟨128, 128, 128, 3⟩, fs := .fs1 } }

-- R274: (160, 144, 128, 3) with fs = 0 and (112, 128, 128, 3) with fs = 1.
theorem test_blend16_state0 :
    (after (.blend16 .right .current) blendExample).latch.right = ⟨160, 144, 128, 3⟩ := by decide +kernel
theorem test_blend16_state1 :
    (after (.blend16 .right .next) blendExample).latch.right = ⟨112, 128, 128, 3⟩ := by decide +kernel

-- R275: (128, 128, 128, 3).
theorem test_blend32 :
    (after (.blend32 .centre .current)
      { stored idleTiny [.mem32 0 0xC04080E0, .mem32 8 0x40C080E0] with
        frame := { w := 5 }, latch := { fetchedIdx := 6, fetched := ⟨128, 128, 128, 3⟩ } }).latch.centre
      = ⟨128, 128, 128, 3⟩ := by decide +kernel

-- R271: the sample passes.
theorem test_resolve_pass :
    (after (.resolvePass .left) { idleTiny with latch := { fetched := ⟨200, 100, 50, 7⟩ } }).latch.left
      = ⟨200, 100, 50, 7⟩ := by decide

-- `95_test_vectors.md` F-13: the running candidate, and the exact extrema beside it.
theorem test_extrema :
    extrema tiny [5, 9, 3] = (5, 5) ∧ extrema tiny [9, 5, 3] = (5, 9) ∧ extrema tiny [3, 9, 5] = (3, 5) ∧
      extrema tiny [5, 7, 9] = (5, 7) ∧ extrema { tiny with blendExtrema := .minMax } [5, 9, 3] = (3, 9) := by decide

/-- The operands of R304's example. -/
def divotExample : State :=
  { idleTiny with latch := { centre := ⟨50, 50, 50, 5⟩, left := ⟨10, 60, 50, 7⟩, right := ⟨20, 40, 50, 7⟩ } }

-- R304: (20, 50, 50, 5), and (50, 50, 50, 7) with the centre fully covered.
theorem test_divot_on : (after (.divotOn .c00) divotExample).latch.c00 = ⟨20, 50, 50, 5⟩ := by decide
theorem test_divot_on_covered :
    (after (.divotOn .c00) { divotExample with latch := { divotExample.latch with centre := ⟨50, 50, 50, 7⟩ } }).latch.c00
      = ⟨50, 50, 50, 7⟩ := by decide
theorem test_divot_off : (after (.divotOff .c11) divotExample).latch.c11 = ⟨50, 50, 50, 5⟩ := by decide

-- `43_divot_bilinear.md` R305: black over white at yfrac 16 is 128; R299: the two orders differ.
theorem test_lerp :
    (after .lerp { idleTiny with
      frame := { yStart := 512 }, latch := { c10 := ⟨255, 248, 0, 7⟩, c11 := ⟨255, 248, 0, 7⟩ } }).latch.colour
      = ⟨128, 124, 0⟩ := by decide
theorem test_lerp_order :
    bilerpChannel tiny 0 0 0 2 8 16 = 1 ∧ bilerpChannel { tiny with lerpOrder := .vFirst } 0 0 0 2 8 16 = 0 := by decide
-- R299: the coverage of the result is that of c00.
theorem test_lerp_coverage :
    (after .lerp { idleTiny with latch := { c00 := ⟨0, 0, 0, 5⟩, c11 := ⟨255, 248, 0, 7⟩ } }).latch.colourCvg = 5 := by decide
theorem test_no_lerp :
    (after .noLerp { idleTiny with latch := { c00 := ⟨1, 2, 3, 4⟩ } }).latch.colour = ⟨1, 2, 3⟩ := by decide

-- `44_gamma_dither_output.md` R328, R330: (200, 100, 50) passes; 128 → 180, 100 → 160, 255 → 254.
theorem test_gd_none : (after .gdNone { idleTiny with latch := { colour := ⟨200, 100, 50⟩ } }).latch.colour
    = ⟨200, 100, 50⟩ := by decide
theorem test_gd_gamma : (after .gdGamma { idleTiny with latch := { colour := ⟨128, 100, 255⟩ } }).latch.colour
    = ⟨180, 160, 254⟩ := by decide
-- R329: 254 with d1 = 1 is 255, 255 stays; R331: 128, 1 and 255 with d6 = 63 are 180, 22 and 254, and 0 is 14.
theorem test_dither_channel : ditherChannel 254 1 = 255 ∧ ditherChannel 255 1 = 255 := by decide
theorem test_gamma_dither_channel :
    gammaDitherChannel 128 63 = 180 ∧ gammaDitherChannel 1 63 = 22 ∧ gammaDitherChannel 255 63 = 254 ∧
      gammaDitherChannel 0 63 = 14 := by decide
-- R317, by hand: from seed 0 the first advance gives 0x269EC3, whose bits [30:16] are 0x26.
theorem test_gd_dither_lcg :
    (after .gdDither { idleTiny with
      params := { tiny with ditherSource := .lcg }, latch := { colour := ⟨10, 10, 255⟩ } }).latch.colour = ⟨10, 11, 255⟩ := by
  decide
theorem test_gd_gamma_dither_lcg_seed :
    (getWorker tiny (after .gdGammaDither { idleTiny with params := { tiny with ditherSource := .lcg } }).workers 0).seed
      = 0x269EC3 := by decide

-- R332: with 320 pixels and margins of 8, pixel 7 is black and pixel 8 is not.
theorem test_clip_left : (after (.hblankClip 7) { idleTiny with frame := { marginLo := 8, marginHi := 312 } }).latch.clipped
    = true := by decide
theorem test_clip_inside : (after (.hblankClip 8) { idleTiny with frame := { marginLo := 8, marginHi := 312 } }).latch.clipped
    = false := by decide

-- R333: pixel 3 of scanline 2 goes to Out[15][23].
theorem test_pixel_write :
    readOut Config.taken (after .pixelWrite { scan := ⟨.render, 2, 3⟩
                                              frame := { vStart := 5, serrate := true, field := true, hStart := 20
                                                         hres := 4, vres := 3 }
                                              latch := { colour := ⟨0xC8, 0x64, 0x32⟩ } }).out 15 23 = 0xC86432 := by decide
-- R32: a scanline of two pixels has ended at i = 2.
theorem test_pixel_write_ended : after .pixelWrite { rendering with scan := ⟨.render, 0, 2⟩ }
    = { rendering with scan := ⟨.render, 0, 2⟩ } := by decide

-- R276: y_add = 0x200 gives 2, 1, 2, 1.
theorem test_fetch_state_even : (after (.fetchState 0) { idleTiny with frame := { yAdd := 0x200 } }).latch.fs = .fs2 := by decide
theorem test_fetch_state_odd : (after (.fetchState 1) { idleTiny with frame := { yAdd := 0x200 } }).latch.fs = .fs1 := by decide

-- R174 and R444.
theorem test_wreg : (after (.wreg .xScale 0x400) idleTiny).slots.xScale = 0x400 := by decide
theorem test_cfg : (after (.cfg (.tvFade true)) idleTiny).config.tvFade = true := by decide

-- R175 to R179.
theorem test_fmt_reserved : (after .fmtReserved idleTiny).log = [.w1] := by decide
theorem test_aa_mode00 : (after .aaMode00 idleTiny).frame.covExtract = true := by decide
theorem test_aa_mode01 : (after .aaMode01 idleTiny).frame.bilinearEn = true := by decide
theorem test_aa_mode10 : (after .aaMode10 idleTiny).frame.covExtract = false ∧ (after .aaMode10 idleTiny).frame.bilinearEn := by
  decide
theorem test_aa_mode11 : (after .aaMode11 idleTiny).frame.bilinearEn = false := by decide

-- R220: the first blank frame is produced, the second skips.
theorem test_fmt_blank_first : (after .fmtBlank idleTiny).pipe.prevWasBlank = true := by decide
theorem test_fmt_blank_second : (after .fmtBlank (after .fmtBlank idleTiny)).result = some (.skip .s2) := by decide

-- R221: V_SYNC = 525 gives 245 active lines; R222: an interlaced one 491.
theorem test_scan_progressive : (after .scanProgressive { idleTiny with frame := { vSync := 525 } }).frame.vactive = 245 := by
  decide
theorem test_scan_interlaced : (after .scanInterlaced { idleTiny with frame := { vSync := 525 } }).frame.vactive = 491 := by
  decide

-- R223: the first normal frame after a fast one starts from an empty buffer.
theorem test_mode_normal : (after .modeNormal { idleTiny with out := [(3, 7)], pipe := { modeLatched := .depth } }).out = [] := by
  decide

-- R392: 0x8421 gives 0x848484; R393: 0x11223344 gives 0x112233; R394: 0xABCD gives 0xABABAB; R395: 0x0001, h = 3: 0xE0E0E0.
theorem test_raw16 :
    readOut tiny (after (.rawColor16 0 1) { rendering with memory := (stored idleTiny [.mem16 1 0x8421]).memory }).out 0 1
      = 0x848484 := by decide
theorem test_raw32 :
    readOut tiny (after (.rawColor32 0 1) { rendering with memory := (stored idleTiny [.mem32 1 0x11223344]).memory }).out 0 1
      = 0x112233 := by decide
theorem test_depth :
    readOut tiny (after (.depth 0 0) { rendering with
      sampled := { zbAddress := 0x21 }, memory := (stored idleTiny [.mem16 0x10 0xABCD]).memory }).out 0 0
      = 0xABABAB := by decide
theorem test_coverage :
    readOut tiny (after (.coverage 0 0) { rendering with memory := (stored idleTiny [.mem16 0 1, .hid 0 3]).memory }).out 0 0
      = 0xE0E0E0 := by decide

-- R218 on the tiny raster: hs 108 and vs 34 start at 0, and the frame goes on to its render.
theorem test_begin_frame : (after .beginFrame beginning).scan.phase = .render ∧ (after .beginFrame beginning).frame.vres = 2 := by
  decide +kernel
-- R198: V_SYNC = 0 gives S1, with nothing presented.
theorem test_frame_step_skip : (after .frameStep idleTiny).result = some (.skip .s1) := by decide +kernel
theorem test_frame_step_frame : (after .frameStep beginning).presented = some ⟨8, 1, 8, 1⟩ := by decide +kernel
-- `45_scanline_sequencer_cache.md` R341: the white pixel of column 1 of scanline 0.
theorem test_render :
    readOut tiny (after .render { rendering with memory := (stored idleTiny [.mem16 1 0xFFFF, .hid 1 3]).memory }).out 0 1
      = 0xF8F8F8 := by decide +kernel
theorem test_scanline :
    readOut tiny (after (.scanline 0) { rendering with
      memory := (stored idleTiny [.mem16 1 0xFFFF, .hid 1 3]).memory }).out 0 1 = 0xF8F8F8 := by decide +kernel
-- R334: a normal frame is presented MAX_W by C.vactive.
theorem test_present :
    (after .present { idleTiny with scan := ⟨.present, 2, 0⟩, frame := { vactive := 3 } }).presented = some ⟨8, 3, 8, 3⟩ := by
  decide

-- R326: the sink is answered after a present, and refused once the next frame step has started, though it skips.
theorem test_sink_after_present : (match sinkRead (after .frameStep beginning) 0 0 with
    | .next w => decide (w = 0)
    | _ => false) = true := by decide +kernel
theorem test_sink_after_skip :
    (match sinkRead (after .frameStep { after .frameStep beginning with slots := {} }) 0 0 with
      | .refused .sinkReadDuringFrameStep => true
      | _ => false) = true := by decide +kernel
-- `70_reset_and_hazards.md` R434: a reset keeps the host's memory, registers and inputs; R403: it clears the fatal mark.
theorem test_reset_keeps_the_host :
    let s : State := { stored beginningFast [.mem16 3 0xABCD] with fatal := true, log := [.w1] }
    (resetBlock s).memory = s.memory ∧ (resetBlock s).slots = s.slots ∧ (resetBlock s).config = s.config ∧
      (resetBlock s).fatal = false ∧ (resetBlock s).log = [] := by decide
-- R219 and R402: after F1 the phase is IDLE again.
theorem test_fatal_phase :
    (after .frameStep { beginning with slots := { beginning.slots with vSync := 41 } }).scan.phase = .idle := by decide +kernel

-- `30_encoding.md` R135 as requests: the next step takes the first of them.
theorem test_step_takes_request :
    (match step { idleTiny with requests := [requestWreg .width 320, requestFrame] } with
      | .next t => decide (t.slots.width = 320 ∧ t.requests = [requestFrame])
      | _ => false) = true := by decide
theorem test_fetch_word_runs :
    (match step (idleTiny.withFetchWord 16 0x300) with
      | .next t => decide (t.frame.aaMode = .mode11)
      | _ => false) = true := by decide
theorem test_fatal_refuses : (match exec .frameStep { idleTiny with fatal := true } with
    | .refused .afterFatal => true
    | _ => false) = true := by decide

/-! ### Hypotheses that can be met, one theorem per statement that has any -/

theorem witness_DecodeOfEncodeIsIdentity :
    (Instr.fetch5551 (-(2 ^ 27))).wellFormed = true ∧ (Instr.rawColor16 (2 ^ 16 - 1) 0).wellFormed = true ∧
      (Instr.cfg (.zbAddress (2 ^ 24 - 1))).wellFormed = true := by decide
theorem witness_DecodedOperationIsWellFormed : decode [2, 0, 0x07FFFFFF, 0] = .ok (.fetch5551 (2 ^ 27 - 1)) := by decide
theorem witness_StepRunsTheDecodedOperation :
    idleTiny.requests = [] ∧ decodeStore requestFrame = none ∧ decode requestFrame = .ok .frameStep ∧
      decodeStore (requestHid 0 3) = some (.hid 0 3) ∧ decodeStore [0, 99, 0, 0] = none ∧
      decode [0, 99, 0, 0] = .error .unknownStage ∧
      ({ idleTiny with requests := [requestFrame] } : State).requests = requestFrame :: [] := by decide
theorem witness_IgnoredStatusBitsChangeNothing :
    (0x2 : Word) &&& 0x1035F = 0xFFFEFCA2 &&& 0x1035F ∧ beginning.fatal = false ∧ beginning.scan.phase = .idle := by decide
theorem witness_PixelViewsOverlap :
    ((0 : Int) ≤ 0 ∧ (0 : Int) < ((tiny.rdramSize / 4 : Nat) : Int)) ∧
      ((0 : Int) ≤ 15 ∧ (15 : Int) < ((tiny.rdramSize / 4 : Nat) : Int)) := by decide
theorem witness_HostStoreWritesOnePixel :
    (rendering.fatal = false ∧ rendering.scan.phase = .render) ∧
      (idleTiny.fatal = true ∨ idleTiny.scan.phase ≠ .render) ∧ idleTiny.wf = true ∧
      31 < idleTiny.params.rdramSize / 2 ∧ 15 < idleTiny.params.rdramSize / 4 ∧ ¬32 < idleTiny.params.rdramSize / 2 ∧
      ¬16 < idleTiny.params.rdramSize / 4 := by decide
theorem witness_FetchLatchesTheSample : idleTiny.fatal = false := by decide
theorem witness_RestoreAddsTheSigns : restoreExample.fatal = false ∧ restoreExample.latch.fs = .fs1 := by decide +kernel
theorem witness_BlendMovesBetweenExtrema : blendExample.fatal = false ∧ blendExample.latch.fs = .fs1 := by decide +kernel
theorem witness_ExtremaBracketTheCentre :
    (∀ x ∈ [7, 9], x ≤ 9) ∧ (∀ x ∈ [7, 9], 7 ≤ x) ∧ ({ tiny with blendExtrema := .minMax } : Params).blendExtrema = .minMax ∧
      tiny.blendExtrema = .runningCandidate := by decide
theorem witness_DivotIsTheMedian :
    divotExample.fatal = false ∧
      ¬(divotExample.latch.centre.cvg = 7 ∧ divotExample.latch.left.cvg = 7 ∧ divotExample.latch.right.cvg = 7) ∧
      (let l : PixelLatches := { centre := ⟨1, 2, 3, 7⟩, left := ⟨4, 5, 6, 7⟩, right := ⟨7, 8, 9, 7⟩ }
       l.centre.cvg = 7 ∧ l.left.cvg = 7 ∧ l.right.cvg = 7) := by decide
theorem witness_PassingOperationsCopy : divotExample.fatal = false := by decide
theorem witness_LerpStaysBetweenItsInputs :
    ((0 : Int) ≤ 0 ∧ (0 : Int) < 32) ∧ ((0 : Int) ≤ 31 ∧ (31 : Int) < 32) := by decide
theorem witness_LerpOperationBlendsTheCorners : idleTiny.fatal = false := by decide
theorem witness_GammaAndDitherUnderDraw :
    idleTiny.fatal = false ∧ idleTiny.latch.clipped = false ∧ idleTiny.params.ditherSource = .draw ∧ idleTiny.wf = true ∧
      ({ idleTiny with latch := { clipped := true } } : State).latch.clipped = true := by decide
theorem witness_DitherUnderLcgAdvancesTheSeed :
    let s : State := { idleTiny with params := { tiny with ditherSource := .lcg } }
    s.fatal = false ∧ s.latch.clipped = false ∧ s.params.ditherSource = .lcg ∧ s.wf = true := by decide
/-- The last pixel of the line, and the first past it. -/
theorem witness_ClipMarksThePixel :
    rendering.fatal = false ∧ ((1 : Nat) : Int) < rendering.frame.hres ∧ ¬((2 : Nat) : Int) < rendering.frame.hres := by decide
/-- The stored word at the last column and row of the raster, a frame that reaches past the raster, and a scanline that has
ended. -/
theorem witness_PixelWriteStoresOneWord :
    (let s : State := { rendering with scan := ⟨.render, 5, 7⟩, frame := { rendering.frame with hres := 8, vres := 6 } }
     s.fatal = false ∧ s.scan.phase = .render ∧ s.wf = true ∧ (s.scan.y : Int) < s.frame.vres ∧
       (s.scan.i : Int) < s.frame.hres ∧ 0 ≤ (s.frame.vStart + s.scan.y) * 1 + 0 ∧
       (s.frame.vStart + s.scan.y) * 1 + 0 < s.params.maxH ∧ 0 ≤ s.frame.hStart + s.scan.i ∧
       s.frame.hStart + s.scan.i < s.params.maxW) ∧
    (let s : State := { rendering with scan := ⟨.render, 0, 2⟩ }
     s.fatal = false ∧ s.scan.phase = .render ∧ s.wf = true ∧ ¬(s.scan.i : Int) < s.frame.hres) := by decide
/-- The last scanline of the frame, and the first past it. -/
theorem witness_FetchStateMarksAliasedRows :
    rendering.fatal = false ∧ ((0 : Nat) : Int) < rendering.frame.vres ∧ ¬((1 : Nat) : Int) < rendering.frame.vres ∧ idleTiny.params.fetchBugEnable = true ∧
      ({ tiny with fetchBugEnable := false } : Params).fetchBugEnable = false := by decide
theorem witness_HostWritesSetOneInput : RegName.status ≠ .origin := by decide
theorem witness_ModeOperationsSetTheirFields :
    idleTiny.fatal = false ∧ idleTiny.scan.phase ≠ .render ∧ idleTiny.scan.phase ≠ .present ∧
      idleTiny.pipe.modeLatched = .normal := by decide
theorem witness_ScanOperationsSequenceTheField :
    idleTiny.fatal = false ∧ idleTiny.scan.phase ≠ .render ∧ idleTiny.scan.phase ≠ .present ∧
      idleTiny.reg.status.getLsbD 1 = false ∧
      ({ idleTiny with reg := { status := 2 } } : State).reg.status.getLsbD 1 = true := by decide
/-- Three scanlines of the tiny raster, interlaced on its last even row: one is written, two are dropped with W4. -/
def dropping : State :=
  { idleTiny with
    reg := { status := 2 }, frame := { isBlank := false, validh := true, hres := 2, vres := 3, vStart := 2, vSync := 40 } }
theorem witness_ScanInterlacedWarnsOfDroppedLines :
    dropping.fatal = false ∧ dropping.scan.phase = .idle ∧ (after .scanInterlaced dropping).log = [.w4, .w4] := by
  decide +kernel
/-- Under the parity control `yes` the lower field follows the counter, under `no` the vertical start. -/
theorem witness_ScanInterlacedSelectsTheField :
    let yes : State := { dropping with pipe := { emuParity := .yes } }
    let no : State := { dropping with pipe := { emuParity := .no, oldVstart := 1 } }
    yes.fatal = false ∧ (after .scanInterlaced yes).pipe.lowerField = true ∧ no.fatal = false ∧
      (after .scanInterlaced no).pipe.lowerField = true ∧
      (after .scanInterlaced dropping).pipe.lowerField = false := by decide +kernel
theorem witness_BlankFormatSkipsClearsOrDecays :
    (idleTiny.fatal = false ∧ idleTiny.scan.phase ≠ .render ∧ idleTiny.scan.phase ≠ .present ∧ idleTiny.wf = true) ∧
      (idleTiny.sampled.tvFade = false ∧ idleTiny.pipe.prevWasBlank = false) ∧
      (let s : State := { idleTiny with pipe := { prevWasBlank := true } }
       s.wf = true ∧ s.sampled.tvFade = false ∧ s.pipe.prevWasBlank = true) ∧
      (let s : State := { idleTiny with sampled := { tvFade := true }, pipe := { fade := [(5, 1)] } }
       s.wf = true ∧ s.sampled.tvFade = true ∧ readFade s.pipe.fade 5 = 1 ∧ 5 < s.params.maxH) := by decide
theorem witness_BeginFrameDecodesTheSnapshot : beginning.fatal = false ∧ beginning.scan.phase = .idle := by decide
theorem witness_BeginFrameResolvesTheGeometry :
    beginning.fatal = false ∧ beginning.scan.phase = .idle ∧ beginning.config.displayMode = .normal := by decide
theorem witness_BeginFrameSequencesTheFields :
    beginning.fatal = false ∧ beginning.scan.phase = .idle ∧ beginning.config.displayMode = .normal := by decide

/-- The active-line count of `beginning` with another V_SYNC. -/
def linesOf (vSync : Word) : Int :=
  activeCount tiny (resolveStandard tiny (decodeRegs tiny { beginning.slots with vSync := vSync }))

theorem witness_BeginFrameProducesAFrame :
    beginning.fatal = false ∧ beginning.scan.phase = .idle ∧ beginning.config.displayMode = .normal ∧
      linesOf 34 = 0 ∧ linesOf 36 = 2 ∧ linesOf 40 = tiny.maxH ∧
      (resolveStandard tiny (decodeRegs tiny beginning.slots)).isBlank = false ∧
      (idleTiny.config.tvFade = false ∧ idleTiny.pipe.prevWasBlank = false) := by decide
/-- A row that is written, one that is not, one in the region and one out of it, with fade on and off. -/
theorem witness_BeginFrameClearsBordersAndFades :
    beginning.fatal = false ∧ beginning.scan.phase = .idle ∧ beginning.config.displayMode = .normal ∧ beginning.wf = true ∧
      linesOf 36 = 2 ∧ (resolveStandard tiny (decodeRegs tiny beginning.slots)).isBlank = false ∧
      (let t := after .beginFrame beginning
       isWritten tiny t.frame 1 = true ∧ isWritten tiny t.frame 2 = false ∧ inRegion t.frame 2 = false ∧
         inBorder t.frame 0 2 = true ∧ inBorder t.frame 0 1 = false) ∧
      (let t := after .beginFrame { beginning with slots := { beginning.slots with status := 0x42 } }
       isWritten tiny t.frame 3 = false ∧ inRegion t.frame 3 = true) := by decide +kernel
/-- Blank frames that decay, clear and skip, each in range. -/
theorem witness_BeginFrameClearsBordersAndFades_blank :
    let blank : State := { beginning with slots := { beginning.slots with status := 0 }, pipe := { fade := [(2, 1)] } }
    blank.fatal = false ∧ blank.scan.phase = .idle ∧ blank.config.displayMode = .normal ∧ blank.wf = true ∧
      (resolveStandard tiny (decodeRegs tiny blank.slots)).isBlank = true ∧ readFade blank.pipe.fade 2 = 1 ∧
      blank.config.tvFade = false ∧ blank.pipe.prevWasBlank = false ∧
      ({ blank with config := { tvFade := true } } : State).config.tvFade = true ∧
      (let again : State := { blank with pipe := { fade := [(2, 1)], prevWasBlank := true } }
       again.wf = true ∧ again.pipe.prevWasBlank = true) := by decide
theorem witness_FastBeginFrameClearsAndSizes :
    let C := decodeRegs tiny beginningFast.slots
    beginningFast.fatal = false ∧ beginningFast.scan.phase = .idle ∧ beginningFast.config.displayMode ≠ .normal ∧
      0 < Int.tdiv (C.xAdd * ((C.heRaw : Int) - C.hsRaw)) 1024 ∧
      0 < Int.tdiv (C.yAdd * (((C.veRaw : Int) - C.vsRaw) / 2)) 1024 ∧ C.vcurParity = false ∧ C.isBlank = false := by decide
theorem witness_WarningsComeInOrder :
    beginning.fatal = false ∧ beginning.scan.phase = .idle ∧ beginning.config.displayMode = .normal ∧
      State.reset.params = Config.taken := by decide

/-- The begin of the tiny frame as the outcome of `BEGIN_FRAME`. -/
theorem begin_answers (s : State) (h : s.fatal = false) (hp : s.scan.phase = .idle) :
    exec .beginFrame s = .next (beginFrame s) := by
  simp [exec, execBeginFrame, phaseOperation, h, hp]

theorem witness_RenderStaysInsideTheRaster :
    beginning.config.displayMode = .normal ∧ exec .beginFrame beginning = .next (beginFrame beginning) ∧
      (beginFrame beginning).scan.phase = .render ∧ 1 ∈ renderedScanlines (beginFrame beginning) ∧
      ((1 : Nat) : Int) < (beginFrame beginning).frame.hres :=
  ⟨by decide, begin_answers _ rfl rfl, by decide +kernel, by decide +kernel, by decide +kernel⟩

/-- The frame of `beginning` on the raster of the specification. -/
def beginningFull : State := { beginning with params := Config.taken }

theorem witness_PixelIndicesStayInRange :
    beginningFull.params = Config.taken ∧ beginningFull.config.displayMode = .normal ∧
      exec .beginFrame beginningFull = .next (beginFrame beginningFull) ∧
      (beginFrame beginningFull).scan.phase = .render ∧ 1 ∈ renderedScanlines (beginFrame beginningFull) ∧
      ((1 : Nat) : Int) < (beginFrame beginningFull).frame.hres :=
  ⟨rfl, by decide, begin_answers _ rfl rfl, by decide +kernel, by decide +kernel, by decide +kernel⟩
theorem witness_PoolIsReadyAtDispatch :
    beginning.wf = true ∧ exec .beginFrame beginning = .next (beginFrame beginning) ∧
      (beginFrame beginning).scan.phase = .render :=
  ⟨by decide, begin_answers _ rfl rfl, by decide +kernel⟩
theorem witness_RenderWritesEveryPixelDirectly :
    (rendering.fatal = false ∧ rendering.scan.phase = .render ∧ rendering.wf = true ∧ rendering.cachesCoherent = true ∧
      rendering.params.cachePromoteStale = false ∧ rendering.params.ditherSource = .draw ∧ rendering.workerFailures = [] ∧
      rendering.frame.isBlank = false ∧ rendering.frame.validh = true ∧ 0 ∈ renderedScanlines rendering ∧
      1 < lineLength rendering ∧ inRaster tiny (targetRow rendering 0) (targetColumn rendering 1) = true) ∧
    (renderingFast.wf = true ∧ renderingFast.cachesCoherent = true ∧ 0 ∈ renderedScanlines renderingFast ∧
      1 < lineLength renderingFast ∧
      inRaster tiny (targetRow renderingFast 0) (targetColumn renderingFast 1) = true) := by decide
theorem witness_RenderDoesNotDependOnWorkers :
    let s' := (rendering.withSampled { rendering.sampled with numWorkers := 3 }).withPool 3 []
    rendering.fatal = false ∧ rendering.scan.phase = .render ∧ rendering.wf = true ∧ s'.wf = true ∧
      rendering.cachesCoherent = true ∧ s'.cachesCoherent = true ∧ rendering.params.cachePromoteStale = false ∧
      rendering.params.ditherSource = .draw ∧ rendering.workerFailures = [] ∧
      workerCount s'.params s'.sampled = 3 ∧ [2, 0, 1].Perm (List.range 3) := by decide
theorem witness_RenderOfNothingAndWorkerFailure :
    (let s : State := { rendering with frame := {} }
     s.fatal = false ∧ s.scan.phase = .render ∧ s.sampled.displayMode = .normal ∧ s.frame.isBlank = true) ∧
    (let s : State := { rendering with workerFailures := [(0, 1)] }
     s.fatal = false ∧ s.scan.phase = .render ∧ s.frame.isBlank = false ∧ s.frame.validh = true ∧
       ∃ f ∈ s.workerFailures, f.1 < workerCount s.params s.sampled) := by decide
theorem witness_ScanlineWritesItsRow :
    rendering.fatal = false ∧ rendering.scan.phase = .render ∧ rendering.wf = true ∧ rendering.cachesCoherent = true ∧
      rendering.params.cachePromoteStale = false ∧ rendering.params.ditherSource = .draw ∧
      1 ∉ renderedScanlines rendering ∧ 0 ∈ renderedScanlines rendering ∧ 1 < lineLength rendering ∧
      inRaster tiny (targetRow rendering 0) (targetColumn rendering 1) = true := by decide
theorem witness_RowPartitionIsExact :
    1 ≤ 3 ∧ 7 ∈ List.range 8 ∧ 7 ∈ ownedScanlines 3 (List.range 8) 1 ∧ 0 < 1 := by decide
theorem witness_PresentHandsOverTheFrame :
    (let s : State := { idleTiny with scan := ⟨.present, 2, 0⟩ }
     s.fatal = false ∧ s.scan.phase = .present ∧ s.sampled.displayMode = .normal) ∧
    (let s : State := { renderingFast with scan := ⟨.present, 2, 0⟩ }
     s.fatal = false ∧ s.scan.phase = .present ∧ s.sampled.displayMode ≠ .normal) := by decide
/-- A frame step that ends in a frame and one that skips; a begin; an operation after a present; a host store after it. -/
theorem witness_PresentHandsOverTheFrame_sink :
    (exec .frameStep beginning = .next (after .frameStep beginning) ∧
      (after .frameStep beginning).result = some .frame) ∧
    (exec .frameStep idleTiny = .next (after .frameStep idleTiny) ∧
      (after .frameStep idleTiny).result = some (.skip .s1)) ∧
    (exec .beginFrame beginning = .next (after .beginFrame beginning) ∧ (after .beginFrame beginning).scan.phase ≠ .idle) ∧
    (let s := after .frameStep beginning
     exec .gdGamma s = .next (after .gdGamma s) ∧ s.scan.phase = .idle ∧ s.handedOver = true ∧
       Instr.gdGamma ∉ [Instr.frameStep, .beginFrame, .fmtBlank, .modeNormal] ∧
       execStore (.hid 0 3) s = .next (stored s [.hid 0 3])) :=
  ⟨⟨rfl, by decide +kernel⟩, ⟨rfl, by decide +kernel⟩, ⟨rfl, by decide +kernel⟩, rfl, by decide +kernel, by decide +kernel,
    by decide, rfl⟩
/-- Under each source of dither values: the last pixel of the frame, and the first past it. -/
theorem witness_FastPixelsDecodeAndStore :
    let lcg : State := { renderingFast with params := { tiny with ditherSource := .lcg } }
    renderingFast.fatal = false ∧ renderingFast.scan.phase = .render ∧ renderingFast.params.ditherSource = .draw ∧
      renderingFast.wf = true ∧ ((0 : Nat) : Int) < renderingFast.frame.vresRaw ∧
      ((1 : Nat) : Int) < renderingFast.frame.hresRaw ∧ ¬((2 : Nat) : Int) < renderingFast.frame.hresRaw ∧
      0 < renderingFast.params.maxH ∧ 1 < renderingFast.params.maxW ∧
      lcg.fatal = false ∧ lcg.scan.phase = .render ∧ lcg.params.ditherSource = .lcg ∧ lcg.wf = true := by decide
theorem witness_NormalFrameStepOutcome :
    beginning.fatal = false ∧ beginning.scan.phase = .idle ∧ beginning.config.displayMode = .normal ∧
      (∀ f ∈ beginning.workerFailures, workerCount beginning.params beginning.config ≤ f.1) ∧
      linesOf 41 = 7 ∧ linesOf 33 = -1 := by decide
/-- A second blank frame with fade off, which meets the hypotheses and ends in S2. -/
theorem witness_NormalFrameStepOutcome_skipS2 :
    let s : State := { beginning with slots := { beginning.slots with status := 0 }, pipe := { prevWasBlank := true } }
    s.fatal = false ∧ s.scan.phase = .idle ∧ s.config.displayMode = .normal ∧ s.workerFailures = [] ∧
      (after .frameStep s).result = some (.skip .s2) := by decide +kernel
theorem witness_FastFrameStepOutcome :
    beginningFast.fatal = false ∧ beginningFast.scan.phase = .idle ∧ beginningFast.config.displayMode ≠ .normal ∧
      (∀ f ∈ beginningFast.workerFailures, workerCount beginningFast.params beginningFast.config ≤ f.1) := by decide
/-- Fast frames that end in S3 (no width), S4 (an odd field) and S5 (a blank format). -/
theorem witness_FastFrameStepOutcome_skips :
    let s3 : State := { beginningFast with slots := { beginningFast.slots with xScale := 0 } }
    let s4 : State := { beginningFast with slots := { beginningFast.slots with vCurrent := 1 } }
    let s5 : State := { beginningFast with slots := { beginningFast.slots with status := 0 } }
    (∀ s ∈ [s3, s4, s5], s.fatal = false ∧ s.scan.phase = .idle ∧ s.config.displayMode ≠ .normal ∧ s.workerFailures = []) ∧
      (after .frameStep s3).result = some (.skip .s3) ∧ (after .frameStep s4).result = some (.skip .s4) ∧
      (after .frameStep s5).result = some (.skip .s5) := by decide +kernel
theorem witness_FrameStepIsItsParts :
    (exec .beginFrame beginning = .next (beginFrame beginning) ∧ (beginFrame beginning).scan.phase = .render ∧
      (renderFrame (beginFrame beginning)).fatal = false) ∧
    (exec .beginFrame idleTiny = .next (beginFrame idleTiny) ∧ (beginFrame idleTiny).scan.phase ≠ .render) ∧
    (let s : State := { beginning with workerFailures := [(0, 0)] }
     exec .beginFrame s = .next (beginFrame s) ∧ (beginFrame s).scan.phase = .render ∧
       (renderFrame (beginFrame s)).fatal = true) :=
  ⟨⟨begin_answers _ rfl rfl, by decide +kernel, by decide +kernel⟩, ⟨begin_answers _ rfl rfl, by decide +kernel⟩,
    begin_answers _ rfl rfl, by decide +kernel, by decide +kernel⟩

/-- A step from the tiny block: a register write. -/
def writing : State := { idleTiny with requests := [requestWreg .width 320] }

theorem witness_ResetMeetsTheInvariants : (stored rendering [.mem16 3 0xABCD]).wf = true := by decide
theorem writing_answers : step writing = .next (after (.wreg .width 320) idleTiny) := rfl

theorem witness_StepKeepsTheFormOfTheState :
    writing.wf = true ∧ step writing = .next (after (.wreg .width 320) idleTiny) := ⟨by decide, rfl⟩
/-- A step in the render phase, from a state whose caches the first scanline has filled. -/
theorem witness_StepKeepsTheCachesCoherent :
    let s : State := { after (.scanline 0) rendering with requests := [encode (.scanline 0)] }
    s.cachesCoherent = true ∧ s.scan.phase = .render ∧ s.workers ≠ [] ∧
      step s = .next (after (.scanline 0) { s with requests := [] }) :=
  ⟨by decide +kernel, by decide +kernel, by decide +kernel, rfl⟩
theorem witness_StepKeepsTheRanges :
    writing.phaseLegal = true ∧ writing.rangesLegal = true ∧ step writing = .next (after (.wreg .width 320) idleTiny) :=
  ⟨by decide, by decide, rfl⟩
/-- A scan operation whose active-line count is in range, at its lowest and its highest value. -/
theorem witness_StepKeepsTheRanges_active :
    let low : State := { idleTiny with frame := { vSync := 34 }, requests := [encode .scanInterlaced] }
    let high : State := { idleTiny with frame := { vSync := 40 }, requests := [encode .scanInterlaced] }
    (∀ s ∈ [low, high], s.activeLegal = true ∧ decode (encode .scanInterlaced) = .ok .scanInterlaced ∧
      0 ≤ activeCount s.params s.frame ∧ activeCount s.params s.frame ≤ s.params.maxH) ∧
      activeCount tiny low.frame = 0 ∧ activeCount tiny high.frame = 6 ∧
      step low = .next (after .scanInterlaced { low with requests := [] }) ∧
      writing.activeLegal = true :=
  ⟨by decide, by decide, by decide, rfl, by decide⟩
theorem witness_FatalMarkIsForEver :
    let s : State := { writing with fatal := true }
    let f : State := { beginning with slots := { beginning.slots with vSync := 41 } }
    (step s = .next (after (.wreg .width 320) { idleTiny with fatal := true }) ∧ s.fatal = true) ∧
      step { f with requests := [requestFrame] } = .next (after .frameStep f) ∧ f.fatal = false ∧
      (after .frameStep f).fatal = true :=
  ⟨⟨rfl, rfl⟩, rfl, rfl, by decide +kernel⟩
theorem witness_StuckAndMisplacedOperationsAreRefused :
    ({ idleTiny with fatal := true } : State).fatal = true ∧ rendering.fatal = false ∧ rendering.scan.phase ≠ .idle ∧
      idleTiny.fatal = false ∧ idleTiny.scan.phase ≠ .render ∧ idleTiny.scan.phase ≠ .present ∧
      (rendering.scan.phase = .render ∨ rendering.scan.phase = .present) := by decide
theorem witness_ParityControlIsDecidedOnce :
    let s : State := { writing with pipe := { emuParity := .yes } }
    step s = .next (after (.wreg .width 320) { idleTiny with pipe := { emuParity := .yes } }) ∧
      s.pipe.emuParity ≠ .undetermined := ⟨rfl, by decide⟩
theorem witness_OperationsWriteOnlyWhatTheyOwn :
    exec (.scanline 0) rendering = .next (after (.scanline 0) rendering) ∧ rendering.scan.phase = .render := ⟨rfl, rfl⟩
theorem witness_OutcomeLogOnlyGrows :
    step { idleTiny with log := [.w2], requests := [encode .fmtReserved] }
      = .next (after .fmtReserved { idleTiny with log := [.w2] }) := rfl
theorem witness_OnlyTheCaptureReadsTheSlots :
    Instr.render ≠ .frameStep ∧ Instr.render ≠ .beginFrame ∧ (∀ n v, Instr.render ≠ .wreg n v) ∧
      exec .render rendering = .next (after .render rendering) :=
  ⟨by decide, by decide, (by intro n v h; cases h), rfl⟩
/-- A cache of depth 2 that holds columns 3 and 4 of row 0: a hit at both ends, a contiguous fill that evicts column 3, and a
reset on either side. -/
def pair : LineCache := ⟨some ⟨0, .fs0, 3, 4⟩, [(3, ⟨1, 2, 3, 7⟩), (4, ⟨4, 5, 6, 7⟩)]⟩
theorem witness_LookupKeepsTheCacheShape : 1 ≤ 2 ∧ cacheShaped 2 pair ∧ pair.marker = some ⟨0, .fs0, 3, 4⟩ := by
  refine ⟨by decide, ⟨?_, ?_, ?_⟩, rfl⟩ <;> decide
-- `95_test_vectors.md` K4 and R351: the outcome in each case.
theorem test_cache_hits : (cacheLookup 2 pair 0 3 .fs0 ⟨9, 9, 9, 7⟩).1 = ⟨1, 2, 3, 7⟩ ∧
    (cacheLookup 2 pair 0 4 .fs0 ⟨9, 9, 9, 7⟩).2 = pair := by decide
theorem test_cache_fills_and_resets :
    (cacheLookup 2 pair 0 5 .fs0 ⟨9, 9, 9, 7⟩).2
        = ⟨some ⟨0, .fs0, 4, 5⟩, [(4, ⟨4, 5, 6, 7⟩), (5, ⟨9, 9, 9, 7⟩)]⟩ ∧
      (cacheLookup 2 pair 0 6 .fs0 ⟨9, 9, 9, 7⟩).2 = ⟨some ⟨0, .fs0, 6, 6⟩, [(6, ⟨9, 9, 9, 7⟩)]⟩ ∧
      (cacheLookup 2 pair 0 2 .fs0 ⟨9, 9, 9, 7⟩).2 = ⟨some ⟨0, .fs0, 2, 2⟩, [(2, ⟨9, 9, 9, 7⟩)]⟩ := by decide
/-- A next-line cache of the row, one of the row with another fetch state, and one of another row. -/
theorem witness_LookupKeepsTheCacheShape_promotion :
    (promote tiny 0 { next := pair }).cur = pair ∧
      (promote tiny 0 { next := ⟨some ⟨0, .fs2, 3, 3⟩, [(3, ⟨1, 2, 3, 7⟩)]⟩ }).cur = {} ∧
      (promote tiny 1 { dnext := pair }).dcur = {} := by decide

/-! ### The stages of a pixel together, and the seeded dither -/

/-- A 16-bit and a 32-bit frame in each coverage mode, with a fully and a partly covered pixel. -/
theorem witness_StagesComposeThePixel_fetch :
    let s : State := { rendering with memory := (stored idleTiny [.mem16 1 0xFFFF, .hid 1 3]).memory }
    s.fatal = false ∧ (after (.fetch5551 1) s).latch.fetched.cvg = 7 ∧ (after (.fetch5551 0) s).latch.fetched.cvg ≠ 7 ∧
      ({ s.frame with covExtract := false, is32 := true } : FrameConfig).covExtract = false := by decide
/-- Latches that hold the resolved samples, the divot outputs and the scaled colour of one pixel of a tiny frame. -/
def latched : State :=
  let P := tiny
  let m := rendering.memory
  let C := rendering.frame
  { rendering with latch :=
      { left := resolvedSample P m C 0 (-1) .fs0, centre := resolvedSample P m C 0 0 .fs0
        right := resolvedSample P m C 0 1 .fs0, c00 := divotSample P m C 0 0 .fs0, c01 := divotSample P m C 0 1 .fs0
        c10 := divotSample P m C 1 0 (fetchStateOf P C 0), c11 := divotSample P m C 1 1 (fetchStateOf P C 0)
        colour := scaledColour P m C 0 0 } }
theorem witness_StagesComposeThePixel :
    latched.fatal = false ∧
      (latched.latch.left = resolvedSample tiny latched.memory latched.frame 0 (0 - 1) .fs0 ∧
        latched.latch.centre = resolvedSample tiny latched.memory latched.frame 0 0 .fs0 ∧
        latched.latch.right = resolvedSample tiny latched.memory latched.frame 0 (0 + 1) .fs0) ∧
      (latched.latch.c00 = divotSample tiny latched.memory latched.frame 0 0 .fs0 ∧
        latched.latch.c01 = divotSample tiny latched.memory latched.frame 0 (0 + 1) .fs0 ∧
        latched.latch.c10 = divotSample tiny latched.memory latched.frame (0 + 1) 0 (fetchStateOf tiny latched.frame 0) ∧
        latched.latch.c11 = divotSample tiny latched.memory latched.frame (0 + 1) (0 + 1)
          (fetchStateOf tiny latched.frame 0)) ∧
      latched.scan = ⟨.render, 0, 0⟩ ∧ latched.sampled.displayMode = .normal ∧ latched.wf = true ∧
      latched.params.ditherSource = .draw ∧ ((0 : Nat) : Int) < latched.frame.vres ∧
      ((0 : Nat) : Int) < latched.frame.hres ∧ latched.latch.colour = scaledColour tiny latched.memory latched.frame 0 0 ∧
      latched.latch.clipped = decide (((0 : Nat) : Int) < latched.frame.marginLo ∨ latched.frame.marginHi ≤ ((0 : Nat) : Int)) ∧
      inRaster tiny (targetRow latched 0) (targetColumn latched 0) = true := by decide +kernel

/-- The tiny frame with two scanlines, dithered from the workers' seeds. -/
def seeded : State :=
  { rendering with
    params := { tiny with ditherSource := .lcg }
    frame := { rendering.frame with vres := 2, gdMode := .dither } }
/-- The same in a fast mode. -/
def seededFast : State :=
  { renderingFast with
    params := { tiny with ditherSource := .lcg }
    frame := { renderingFast.frame with vresRaw := 2, gdMode := .gammaDither } }
theorem witness_SeededRenderFollowsTheSeeds :
    ∀ s ∈ [seeded, seededFast], s.fatal = false ∧ s.scan.phase = .render ∧ s.wf = true ∧ s.cachesCoherent = true ∧
      s.params.cachePromoteStale = false ∧ s.params.ditherSource = .lcg ∧ 1 ∈ renderedScanlines s ∧ 1 < lineLength s ∧
      inRaster tiny (targetRow s 1) (targetColumn s 1) = true ∧ s.workerFailures = [] ∧ s.frame.isBlank = false ∧
      s.frame.validh = true ∧ 2 ∉ renderedScanlines s ∧ [2, 0, 1].Perm (List.range 3) := by decide +kernel
/-- One worker and two give different dithered pixels. -/
theorem witness_SeededRenderFollowsTheSeeds_count :
    let two : State := seeded.withSampled { seeded.sampled with numWorkers := 2 }
    exec .render seeded = .next (after .render seeded) ∧ exec .render two = .next (after .render two) ∧
      (after .render seeded).out ≠ (after .render two).out :=
  ⟨rfl, rfl, by decide +kernel⟩

end Sys2Proof.Tests
end

section
/-! PROOFS. The indexed pixel reads of `20_memory.md`: byte order, range and value at every integer index. -/

namespace Sys2Proof.Machine

/-- A pixel index is inside a space exactly when it is neither negative nor past its last pixel. -/
theorem indexInside_iff {i : Int} {n : Nat} : indexInside i n = true ↔ 0 ≤ i ∧ i < (n : Int) := by
  simp [indexInside]

/-- The byte at the highest address is the least significant one (R82). -/
theorem bigEndian_concat (bs : List Byte) (b : Byte) : bigEndian (bs ++ [b]) = bigEndian bs * 256 + b.toNat := by
  simp [bigEndian]

/-- A big-endian number fits in as many bits as its bytes hold. -/
theorem bigEndian_lt (bs : List Byte) : bigEndian bs < 2 ^ (8 * bs.length) := by
  induction bs using List.reverseRecOn with
  | nil => simp [bigEndian]
  | append_singleton bs b ih =>
    have hb : b.toNat < 256 := b.isLt
    have hpow : 2 ^ (8 * (bs ++ [b]).length) = 2 ^ (8 * bs.length) * 256 := by
      rw [List.length_append, List.length_singleton, Nat.mul_add, Nat.pow_add]
    rw [bigEndian_concat, hpow]
    omega

/-- A read of `n` bytes fits in `8 * n` bits, inside memory or not. -/
theorem memRead_lt (P : Params) (m : Memory) (addr n : Nat) : memRead P m addr n < 2 ^ (8 * n) := by
  unfold memRead
  split
  · simpa using bigEndian_lt ((List.range n).map fun k => readByte m (addr + k))
  · exact Nat.two_pow_pos _

/-- Two bytes inside memory are read with the lower address first. -/
theorem memRead_two {P : Params} {addr : Nat} (m : Memory) (h : addr + 2 ≤ P.rdramSize) :
    memRead P m addr 2 = (readByte m addr).toNat * 2 ^ 8 + (readByte m (addr + 1)).toNat := by
  simp [memRead, h, bigEndian, List.range_succ]

/-- Four bytes inside memory are read with the lowest address first. -/
theorem memRead_four {P : Params} {addr : Nat} (m : Memory) (h : addr + 4 ≤ P.rdramSize) :
    memRead P m addr 4 = (readByte m addr).toNat * 2 ^ 24 + (readByte m (addr + 1)).toNat * 2 ^ 16 +
      (readByte m (addr + 2)).toNat * 2 ^ 8 + (readByte m (addr + 3)).toNat := by
  simp only [memRead, h, if_true, bigEndian, List.range_succ, List.range_zero, List.nil_append, List.cons_append,
    List.map_cons, List.map_nil, List.foldl_cons, List.foldl_nil, Nat.add_zero]
  omega

/-- A 16-bit read loses no bit of the two bytes it takes from memory (R84). -/
theorem read16_toNat (P : Params) (m : Memory) (i : Int) :
    (read16 P m i).toNat =
      if 0 ≤ i ∧ i < ((P.rdramSize / 2 : Nat) : Int) then memRead P m (2 * i.toNat) 2 else 0 := by
  simp only [read16, indexInside_iff]
  split
  · exact Nat.mod_eq_of_lt (memRead_lt P m _ 2)
  · rfl

/-- A 32-bit read loses no bit of the four bytes it takes from memory (R85). -/
theorem read32_toNat (P : Params) (m : Memory) (i : Int) :
    (read32 P m i).toNat =
      if 0 ≤ i ∧ i < ((P.rdramSize / 4 : Nat) : Int) then memRead P m (4 * i.toNat) 4 else 0 := by
  simp only [read32, indexInside_iff]
  split
  · exact Nat.mod_eq_of_lt (memRead_lt P m _ 4)
  · rfl

/-- A hidden read is the stored value at an index inside the space, and 0 at every other (R86). -/
theorem readHidden_eq (P : Params) (m : Memory) (i : Int) :
    readHidden P m i =
      if 0 ≤ i ∧ i < ((P.rdramSize / 2 : Nat) : Int) then readHiddenCell m i.toNat else 0 := by
  simp only [readHidden, indexInside_iff]

/-- Settles O6: an index in range keeps every byte of its pixel inside memory, where the reads are big-endian. -/
theorem pixelReadsByIndex : Obligations.PixelReadsByIndex := by
  intro P m i
  refine ⟨?read16, ?read32, readHidden_eq P m i, rfl⟩
  case read16 =>
    rw [read16_toNat]
    split
    next hi => exact memRead_two m (by omega)
    next => rfl
  case read32 =>
    rw [read32_toNat]
    split
    next hi => exact memRead_four m (by omega)
    next => rfl

end Sys2Proof.Machine
end

section
/-! PROOFS. The ignored bits of STATUS (`30_encoding.md` R118): the decoder and the interlace sequencer alone read STATUS,
and every stage of a frame step commutes with a change of the bits they do not read. -/

namespace Sys2Proof.Machine

/-! ### Reading under a mask -/

/-- Two words that agree under a mask agree in every bit of the mask. -/
theorem getLsbD_eq_of_and_eq {n : Nat} {v w mask : BitVec n} (h : v &&& mask = w &&& mask) {k : Nat}
    (hk : mask.getLsbD k = true) : v.getLsbD k = w.getLsbD k := by
  simpa [hk] using congrArg (BitVec.getLsbD · k) h

/-- Two words that agree under a mask agree in every field that the mask covers. -/
theorem field_eq_of_and_eq {v w mask : Word} (h : v &&& mask = w &&& mask) {lo len : Nat}
    (hk : ∀ k < len, mask.getLsbD (lo + k) = true) : field v lo len = field w lo len := by
  have hbits : v.extractLsb' lo len = w.extractLsb' lo len := by
    ext k hlt
    simpa [hlt] using getLsbD_eq_of_and_eq h (hk k hlt)
  rw [field, field, hbits]

/-! ### The two readers of STATUS -/

/-- The decoder reads no ignored bit of STATUS (R118). -/
theorem decodeRegs_set_status (P : Params) (r : Regs) {v w : Word} (h : v &&& 0x1035F = w &&& 0x1035F) :
    decodeRegs P (r.set .status w) = decodeRegs P (r.set .status v) := by
  have format : field v 0 2 = field w 0 2 := field_eq_of_and_eq h (by decide)
  have gamma : field v 2 2 = field w 2 2 := field_eq_of_and_eq h (by decide)
  have aa : field v 8 2 = field w 8 2 := field_eq_of_and_eq h (by decide)
  have divot : v.getLsbD 4 = w.getLsbD 4 := getLsbD_eq_of_and_eq h (by decide)
  have serrate : v.getLsbD 6 = w.getLsbD 6 := getLsbD_eq_of_and_eq h (by decide)
  have restore : v.getLsbD 16 = w.getLsbD 16 := getLsbD_eq_of_and_eq h (by decide)
  simp only [decodeRegs, Regs.set, format, gamma, aa, divot, serrate, restore]

/-- The interlace sequencer reads bit 1 of STATUS, which is not ignored (R118). -/
theorem validInterlaceOf_set_status {r : Regs} {w : Word} (h : r.status &&& 0x1035F = w &&& 0x1035F)
    (C : FrameConfig) : validInterlaceOf (r.set .status w) C = validInterlaceOf r C := by
  have htype : r.status.getLsbD 1 = w.getLsbD 1 := getLsbD_eq_of_and_eq h (by decide)
  simp only [validInterlaceOf, Regs.set, htype]

/-! ### The state under another STATUS -/

/-- The state with another STATUS, in its slot and in the snapshot. -/
def State.withStatus (s : State) (w : Word) : State :=
  (s.withSlots (s.slots.set .status w)).withReg (s.reg.set .status w)

@[simp] theorem State.withStatus_params (s : State) (w : Word) : (s.withStatus w).params = s.params := rfl
@[simp] theorem State.withStatus_reg (s : State) (w : Word) : (s.withStatus w).reg = s.reg.set .status w := rfl
@[simp] theorem State.withStatus_frame (s : State) (w : Word) : (s.withStatus w).frame = s.frame := rfl
@[simp] theorem State.withStatus_scan (s : State) (w : Word) : (s.withStatus w).scan = s.scan := rfl

/-- A change of STATUS passes into both branches of a choice. -/
theorem State.withStatus_ite (c : Prop) [Decidable c] (s t : State) (w : Word) :
    (if c then s else t).withStatus w = if c then s.withStatus w else t.withStatus w :=
  apply_ite (State.withStatus · w) c s t

section
variable (s : State) (w : Word)

/-! ### Updates and outcomes: none of them reads STATUS -/

theorem State.withFrame_withStatus (C : FrameConfig) : (s.withStatus w).withFrame C = (s.withFrame C).withStatus w := rfl

theorem State.withOut_withStatus (o : List (Nat × Word)) : (s.withStatus w).withOut o = (s.withOut o).withStatus w := rfl

theorem skip_withStatus (code : SkipCode) : skip code (s.withStatus w) = (skip code s).withStatus w := rfl

theorem raiseFatal_withStatus (code : FatalCode) :
    raiseFatal code (s.withStatus w) = (raiseFatal code s).withStatus w := rfl

/-! ### Stages that read no STATUS: the latch, the clamps, the fades, the fast path and the render -/

theorem warnReserved_withStatus : warnReserved (s.withStatus w) = (warnReserved s).withStatus w := by
  rw [warnReserved, warnReserved, State.withStatus_ite]; rfl

theorem latchMode_withStatus (mode : DisplayMode) :
    latchMode mode (s.withStatus w) = (latchMode mode s).withStatus w := by
  rw [latchMode, latchMode, State.withStatus_ite]; rfl

theorem clampWidth_withStatus : clampWidth (s.withStatus w) = (clampWidth s).withStatus w := by
  rw [clampWidth, clampWidth, State.withStatus_ite]; rfl

theorem clampHeight_withStatus : clampHeight (s.withStatus w) = (clampHeight s).withStatus w := by
  rw [clampHeight, clampHeight, State.withStatus_ite]; rfl

theorem placeFrame_withStatus : placeFrame (s.withStatus w) = (placeFrame s).withStatus w := rfl

theorem startPool_withStatus : startPool (s.withStatus w) = (startPool s).withStatus w := by
  rw [startPool, startPool, State.withStatus_ite]; rfl

theorem dispatch_withStatus : dispatch (s.withStatus w) = (dispatch s).withStatus w := by
  rw [dispatch, startPool_withStatus]; rfl

theorem blankFrame_withStatus : blankFrame (s.withStatus w) = (blankFrame s).withStatus w := by
  rw [blankFrame, blankFrame, State.withStatus_ite]; rfl

theorem activeFrame_withStatus : activeFrame (s.withStatus w) = (activeFrame s).withStatus w := rfl

theorem finishBegin_withStatus : finishBegin (s.withStatus w) = (finishBegin s).withStatus w := by
  have hskips : blankSkips (s.withStatus w) = blankSkips s := rfl
  simp only [finishBegin, State.withStatus_ite, State.withStatus_frame, hskips, skip_withStatus, blankFrame_withStatus,
    activeFrame_withStatus, dispatch_withStatus]

theorem clampFastWidth_withStatus : clampFastWidth (s.withStatus w) = (clampFastWidth s).withStatus w := by
  rw [clampFastWidth, clampFastWidth, State.withStatus_ite]; rfl

theorem clampFastHeight_withStatus : clampFastHeight (s.withStatus w) = (clampFastHeight s).withStatus w := by
  rw [clampFastHeight, clampFastHeight, State.withStatus_ite]; rfl

theorem fastBegin_withStatus : fastBegin (s.withStatus w) = (fastBegin s).withStatus w := by
  simp only [fastBegin, State.withStatus_ite, State.withStatus_frame, State.withFrame_withStatus, skip_withStatus,
    clampFastWidth_withStatus, clampFastHeight_withStatus, State.withOut_withStatus, dispatch_withStatus]

theorem renderScanline_withStatus (y : Nat) :
    renderScanline (s.withStatus w) y = (renderScanline s y).withStatus w := rfl

theorem runWorkers_withStatus : runWorkers (s.withStatus w) = (runWorkers s).withStatus w :=
  List.foldl_hom (State.withStatus · w) fun _ _ =>
    List.foldl_hom (State.withStatus · w) fun t y => renderScanline_withStatus t w y

theorem renderFrame_withStatus : renderFrame (s.withStatus w) = (renderFrame s).withStatus w := by
  rw [renderFrame, renderFrame, State.withStatus_ite]
  simp only [runWorkers_withStatus, State.withStatus_ite]
  rfl

theorem presentFrame_withStatus : presentFrame (s.withStatus w) = (presentFrame s).withStatus w := rfl

theorem afterBegin_withStatus : afterBegin (s.withStatus w) = (afterBegin s).withStatus w := by
  simp only [afterBegin, State.withStatus_ite, State.withStatus_scan, renderFrame_withStatus, presentFrame_withStatus]

end

/-! ### Stages that read STATUS: the capture and the interlace sequencer -/

/-- The interlace sequencer commutes with a change of the ignored bits. -/
theorem sequenceInterlace_withStatus {s : State} {w : Word} (h : s.reg.status &&& 0x1035F = w &&& 0x1035F) :
    sequenceInterlace (s.withStatus w) = (sequenceInterlace s).withStatus w := by
  simp only [sequenceInterlace, State.withStatus_reg, State.withStatus_frame, validInterlaceOf_set_status h]
  rfl

/-- The geometry commutes with such a change: the sequencer is its only reader of STATUS. -/
theorem resolveGeometry_withStatus {s : State} {w : Word} (h : s.reg.status &&& 0x1035F = w &&& 0x1035F) :
    resolveGeometry (s.withStatus w) = (resolveGeometry s).withStatus w := by
  have hsequence (C : FrameConfig) :
      sequenceInterlace ((s.withFrame C).withStatus w) = (sequenceInterlace (s.withFrame C)).withStatus w :=
    sequenceInterlace_withStatus h
  simp only [resolveGeometry, State.withStatus_params, State.withStatus_frame, State.withFrame_withStatus, hsequence,
    clampWidth_withStatus, clampHeight_withStatus]

/-- The normal path commutes with such a change, however it ends. -/
theorem normalBegin_withStatus {s : State} {w : Word} (h : s.reg.status &&& 0x1035F = w &&& 0x1035F) :
    normalBegin (s.withStatus w) = (normalBegin s).withStatus w := by
  simp only [normalBegin, resolveGeometry_withStatus h, State.withStatus_params, State.withStatus_frame,
    raiseFatal_withStatus, skip_withStatus, placeFrame_withStatus, finishBegin_withStatus, State.withStatus_ite]

/-- The capture of another STATUS changes it in the snapshot, and the decode of it is the same. -/
theorem captureAndDecode_withSlots_status {v w : Word} (s : State) (h : v &&& 0x1035F = w &&& 0x1035F) :
    captureAndDecode (s.withSlots (s.slots.set .status w)) =
      (captureAndDecode (s.withSlots (s.slots.set .status v))).withStatus w := by
  have hdecode := decodeRegs_set_status s.params s.slots h
  rw [captureAndDecode, captureAndDecode, ← warnReserved_withStatus]
  simp only [captureRegs, State.withReg_reg, State.withSlots_slots, State.withSlots_params, hdecode]
  rfl

/-- The latch reads no STATUS, so that either display path starts from the same state but for STATUS. -/
theorem captured_withSlots_status {v w : Word} (s : State) (h : v &&& 0x1035F = w &&& 0x1035F) :
    captured (s.withSlots (s.slots.set .status w)) = (captured (s.withSlots (s.slots.set .status v))).withStatus w := by
  have hcapture : captureAndDecode (startFrameStep (s.withSlots (s.slots.set .status w))) =
      (captureAndDecode (startFrameStep (s.withSlots (s.slots.set .status v)))).withStatus w :=
    captureAndDecode_withSlots_status (startFrameStep s) h
  rw [captured, captured, hcapture, latchMode_withStatus]
  rfl

/-- `begin_frame` commutes with such a change of the slot, whichever path the display mode takes. -/
theorem beginFrame_withSlots_status {v w : Word} (s : State) (h : v &&& 0x1035F = w &&& 0x1035F) :
    beginFrame (s.withSlots (s.slots.set .status w)) =
      (beginFrame (s.withSlots (s.slots.set .status v))).withStatus w := by
  obtain ⟨-, hreg, -⟩ := captured_samples (s.withSlots (s.slots.set .status v))
  have hread : (captured (s.withSlots (s.slots.set .status v))).reg.status &&& 0x1035F = w &&& 0x1035F := by
    rw [hreg]; exact h
  rw [beginFrame_eq, beginFrame_eq, captured_withSlots_status s h, normalBegin_withStatus hread,
    fastBegin_withStatus, State.withStatus_ite]
  rfl

/-- Settles O5: `begin_frame` answers the same under both values but for the slot and the snapshot, and nothing after it
reads them. -/
theorem ignoredStatusBitsChangeNothing : Obligations.IgnoredStatusBitsChangeNothing := by
  intro s v w h hfatal hidle
  have hstep : frameStep (s.withSlots (s.slots.set .status w)) =
      (frameStep (s.withSlots (s.slots.set .status v))).withStatus w := by
    rw [frameStep, frameStep, beginFrame_withSlots_status s h, afterBegin_withStatus]
  refine ⟨frameStep (s.withSlots (s.slots.set .status v)), phaseOperation_clear frameStep hfatal hidle, ?_⟩
  calc exec .frameStep (s.withSlots (s.slots.set .status w))
      = .next (frameStep (s.withSlots (s.slots.set .status w))) := phaseOperation_clear frameStep hfatal hidle
    _ = .next ((frameStep (s.withSlots (s.slots.set .status v))).withStatus w) := by rw [hstep]

end Sys2Proof.Machine
end

section
/-! PROOFS. The register snapshot decoder (`40_register_snapshot_decoder.md`): every field of `FrameConfig` that depends
on the registers alone is arithmetic on the slots, and no stage of `begin_frame` after the decode changes one. -/

namespace Sys2Proof.Machine

/-! ### Fields of a register as arithmetic -/

/-- A field is the register shifted down to it and cut to its length (R15). -/
theorem field_eq_div_mod (v : Word) (lo len : Nat) : field v lo len = v.toNat / 2 ^ lo % 2 ^ len := by
  rw [field, BitVec.extractLsb'_toNat, Nat.shiftRight_eq_div_pow]

/-- A field that starts at bit 0 is the register cut to its length. -/
theorem field_zero_eq_mod (v : Word) (len : Nat) : field v 0 len = v.toNat % 2 ^ len := by
  rw [field_eq_div_mod, Nat.pow_zero, Nat.div_one]

/-- A flag is the parity of the register shifted down to it. -/
theorem getLsbD_eq_decide_div_mod (v : Word) (k : Nat) : v.getLsbD k = decide (v.toNat / 2 ^ k % 2 = 1) :=
  Nat.testBit_eq_decide_div_mod_eq

/-- The high half of a register under a mask (R168, R169). -/
theorem toNat_ushiftRight_and (v mask : Word) :
    ((v >>> 16) &&& mask).toNat = (v.toNat / 65536) &&& mask.toNat := by
  rw [BitVec.toNat_and, BitVec.toNat_ushiftRight, Nat.shiftRight_eq_div_pow]

/-! ### The tables of the decoder -/

/-- R152 as a table. -/
theorem formatOf_eq_getD : ∀ n < 4,
    formatOf n = [PixelFormat.blank, .reserved, .rgba5551, .rgba8888].getD n .blank := by decide

/-- A format is blank exactly when the high bit of its number is clear (R154). -/
theorem formatOf_blank : ∀ n < 4,
    decide (formatOf n = .blank ∨ formatOf n = .reserved) = decide (n / 2 % 2 = 0) := by decide

/-- Format 3 alone is the 32-bit one (R155). -/
theorem formatOf_is32 : ∀ n < 4, decide (formatOf n = .rgba8888) = decide (n = 3) := by decide

/-- R156 as a table. -/
theorem gdModeOf_eq_getD : ∀ n < 4,
    gdModeOf n = [GdMode.none, .dither, .gamma, .gammaDither].getD n .none := by decide

/-- R159 as a table. -/
theorem aaModeOf_eq_getD : ∀ n < 4,
    aaModeOf n = [AaMode.mode00, .mode01, .mode10, .mode11].getD n .mode00 := by decide

/-- Coverage is extracted exactly when the high bit of the mode is clear (R159). -/
theorem coverageExtracted_aaModeOf : ∀ n < 4, coverageExtracted (aaModeOf n) = decide (n / 2 % 2 = 0) := by decide

/-- Mode 3 alone goes without the bilinear filter (R160). -/
theorem bilinearEnabled_eq (m : AaMode) : bilinearEnabled m = decide (m ≠ .mode11) := by cases m <;> rfl

/-! ### The fields the decoder takes from STATUS -/

section
variable (P : Params) (r : Regs)

theorem decodeRegs_fmt :
    (decodeRegs P r).fmt = [PixelFormat.blank, .reserved, .rgba5551, .rgba8888].getD (r.status.toNat % 4) .blank := by
  change formatOf (field r.status 0 2) = _
  rw [field_zero_eq_mod]
  exact formatOf_eq_getD _ (Nat.mod_lt _ (by decide))

theorem decodeRegs_isBlank : (decodeRegs P r).isBlank = decide (r.status.toNat / 2 % 2 = 0) := by
  have hbit : r.status.toNat % 2 ^ 2 / 2 % 2 = r.status.toNat / 2 % 2 := by omega
  change decide (formatOf (field r.status 0 2) = .blank ∨ formatOf (field r.status 0 2) = .reserved) = _
  rw [field_zero_eq_mod, ← hbit]
  exact formatOf_blank _ (Nat.mod_lt _ (by decide))

theorem decodeRegs_is32 : (decodeRegs P r).is32 = decide (r.status.toNat % 4 = 3) := by
  change decide (formatOf (field r.status 0 2) = .rgba8888) = _
  rw [field_zero_eq_mod]
  exact formatOf_is32 _ (Nat.mod_lt _ (by decide))

theorem decodeRegs_gdMode :
    (decodeRegs P r).gdMode = [GdMode.none, .dither, .gamma, .gammaDither].getD
      (2 * (r.status.toNat / 8 % 2) + r.status.toNat / 4 % 2) .none := by
  have hpair : 2 * (r.status.toNat / 8 % 2) + r.status.toNat / 4 % 2 = r.status.toNat / 4 % 4 := by omega
  change gdModeOf (field r.status 2 2) = _
  rw [field_eq_div_mod, hpair]
  exact gdModeOf_eq_getD _ (Nat.mod_lt _ (by decide))

theorem decodeRegs_aaMode :
    (decodeRegs P r).aaMode =
      [AaMode.mode00, .mode01, .mode10, .mode11].getD (r.status.toNat / 256 % 4) .mode00 := by
  change aaModeOf (field r.status 8 2) = _
  rw [field_eq_div_mod]
  exact aaModeOf_eq_getD _ (Nat.mod_lt _ (by decide))

theorem decodeRegs_covExtract : (decodeRegs P r).covExtract = decide (r.status.toNat / 512 % 2 = 0) := by
  have hbit : r.status.toNat / 2 ^ 8 % 2 ^ 2 / 2 % 2 = r.status.toNat / 512 % 2 := by omega
  change coverageExtracted (aaModeOf (field r.status 8 2)) = _
  rw [field_eq_div_mod, ← hbit]
  exact coverageExtracted_aaModeOf _ (Nat.mod_lt _ (by decide))

theorem decodeRegs_bilinearEn :
    (decodeRegs P r).bilinearEn = decide ((decodeRegs P r).aaMode ≠ .mode11) :=
  bilinearEnabled_eq _

/-! ### The fields the decoder takes from the other slots -/

theorem decodeRegs_origin : (decodeRegs P r).origin = r.origin.toNat % 2 ^ 24 :=
  field_zero_eq_mod r.origin 24

/-- The 16-bit and the 32-bit pixel index of the first pixel (R164). -/
theorem decodeRegs_bases :
    (decodeRegs P r).base16 = (decodeRegs P r).origin / 2 ∧ (decodeRegs P r).base32 = (decodeRegs P r).origin / 4 :=
  ⟨Nat.shiftRight_eq_div_pow _ 1, Nat.shiftRight_eq_div_pow _ 2⟩

theorem decodeRegs_w : (decodeRegs P r).w = r.width.toNat % 4096 :=
  field_zero_eq_mod r.width 12

theorem decodeRegs_vSync : (decodeRegs P r).vSync = r.vSync.toNat % 1024 :=
  field_zero_eq_mod r.vSync 10

theorem decodeRegs_vcurParity : (decodeRegs P r).vcurParity = decide (r.vCurrent.toNat % 2 = 1) := by
  change r.vCurrent.getLsbD 0 = _
  rw [getLsbD_eq_decide_div_mod, Nat.pow_zero, Nat.div_one]

/-- The low fields of the two scale registers (R170, R171). -/
theorem decodeRegs_adds :
    (decodeRegs P r).xAdd = r.xScale.toNat % 4096 ∧ (decodeRegs P r).yAdd = r.yScale.toNat % 4096 :=
  ⟨field_zero_eq_mod r.xScale 12, field_zero_eq_mod r.yScale 12⟩

end

/-! ### After the decode -/

/-- `C` with the fields of the resolver, those that do not depend on the registers alone, taken from `R`. -/
def FrameConfig.withResolved (C R : FrameConfig) : FrameConfig :=
  { C with
    isPal := R.isPal, hres := R.hres, vres := R.vres, hStart := R.hStart, hStartClamped := R.hStartClamped
    hresClamped := R.hresClamped, xStart := R.xStart, yStart := R.yStart, validInterlace := R.validInterlace
    field := R.field, vStart := R.vStart, vactive := R.vactive, validh := R.validh, marginLo := R.marginLo
    marginHi := R.marginHi, hresRaw := R.hresRaw, vresRaw := R.vresRaw }

/-- What `begin_frame` has captured, sampled and decoded is the same in `t` as in `s`. -/
structure KeepsDecode (s t : State) : Prop where
  reg : t.reg = s.reg
  sampled : t.sampled = s.sampled
  frame : t.frame = s.frame.withResolved t.frame

theorem KeepsDecode.trans {s t u : State} (h : KeepsDecode s t) (h' : KeepsDecode t u) : KeepsDecode s u where
  reg := h'.reg.trans h.reg
  sampled := h'.sampled.trans h.sampled
  frame := h'.frame.trans (by rw [h.frame]; rfl)

/-- A stage that resolves fields of the configuration keeps the decode. -/
theorem withFrame_keepsDecode {s : State} {C : FrameConfig} (h : C = s.frame.withResolved C) :
    KeepsDecode s (s.withFrame C) := ⟨rfl, rfl, h⟩

theorem skip_keepsDecode (code : SkipCode) (s : State) : KeepsDecode s (skip code s) := ⟨rfl, rfl, rfl⟩

theorem raiseFatal_keepsDecode (code : FatalCode) (s : State) : KeepsDecode s (raiseFatal code s) := ⟨rfl, rfl, rfl⟩

theorem dispatch_keepsDecode (s : State) : KeepsDecode s (dispatch s) := by
  unfold dispatch startPool
  simp only
  split <;> exact ⟨rfl, rfl, rfl⟩

/-! ### The normal path -/

theorem clampHorizontalStart_resolves (C : FrameConfig) :
    clampHorizontalStart C = C.withResolved (clampHorizontalStart C) := by
  unfold clampHorizontalStart; split <;> rfl

theorem resolveVerticalStart_resolves (P : Params) (C : FrameConfig) :
    resolveVerticalStart P C = C.withResolved (resolveVerticalStart P C) := by
  unfold resolveVerticalStart; simp only; split <;> rfl

theorem clampWidth_keepsDecode (s : State) : KeepsDecode s (clampWidth s) := by
  unfold clampWidth; split <;> exact ⟨rfl, rfl, rfl⟩

theorem clampHeight_keepsDecode (s : State) : KeepsDecode s (clampHeight s) := by
  unfold clampHeight; split <;> exact ⟨rfl, rfl, rfl⟩

theorem sequenceInterlace_keepsDecode (s : State) : KeepsDecode s (sequenceInterlace s) := ⟨rfl, rfl, rfl⟩

theorem resolveGeometry_keepsDecode (s : State) : KeepsDecode s (resolveGeometry s) := by
  have hstart := clampHorizontalStart_resolves (resolveSize s.params (resolveStandard s.params s.frame))
  exact (withFrame_keepsDecode hstart).trans ((sequenceInterlace_keepsDecode _).trans
    ((withFrame_keepsDecode (resolveVerticalStart_resolves _ _)).trans
      ((clampWidth_keepsDecode _).trans (clampHeight_keepsDecode _))))

theorem warnDropped_keepsDecode (s : State) : KeepsDecode s (warnDropped s) := ⟨rfl, rfl, rfl⟩

theorem placeFrame_keepsDecode (s : State) : KeepsDecode s (placeFrame s) := by
  have hactive : KeepsDecode s
      (s.withFrame (resolveField s.pipe.lowerField (resolveValid s.params (resolveActive s.params s.frame)))) :=
    withFrame_keepsDecode rfl
  exact hactive.trans ((warnDropped_keepsDecode _).trans (withFrame_keepsDecode rfl))

theorem blankFrame_keepsDecode (s : State) : KeepsDecode s (blankFrame s) := by
  unfold blankFrame; split <;> exact ⟨rfl, rfl, rfl⟩

theorem activeFrame_keepsDecode (s : State) : KeepsDecode s (activeFrame s) := ⟨rfl, rfl, rfl⟩

theorem finishBegin_keepsDecode (s : State) : KeepsDecode s (finishBegin s) := by
  rcases finishBegin_cases s with ⟨-, -, e⟩ | ⟨-, -, e⟩ | ⟨-, e⟩ <;> rw [e]
  · exact skip_keepsDecode _ _
  · exact (blankFrame_keepsDecode s).trans (dispatch_keepsDecode _)
  · exact (activeFrame_keepsDecode s).trans (dispatch_keepsDecode _)

/-- A normal `begin_frame` keeps the decode, whichever way it ends. -/
theorem normalBegin_keepsDecode (s : State) : KeepsDecode s (normalBegin s) := by
  have hgeometry := resolveGeometry_keepsDecode s
  rcases normalBegin_cases s with ⟨-, e⟩ | ⟨-, -, e⟩ | ⟨-, -, e⟩ <;> rw [e]
  · exact hgeometry.trans (raiseFatal_keepsDecode _ _)
  · exact hgeometry.trans (skip_keepsDecode _ _)
  · exact hgeometry.trans ((placeFrame_keepsDecode _).trans (finishBegin_keepsDecode _))

/-! ### The fast path -/

theorem clampFastWidth_keepsDecode (s : State) : KeepsDecode s (clampFastWidth s) := by
  unfold clampFastWidth; split <;> exact ⟨rfl, rfl, rfl⟩

theorem clampFastHeight_keepsDecode (s : State) : KeepsDecode s (clampFastHeight s) := by
  unfold clampFastHeight; split <;> exact ⟨rfl, rfl, rfl⟩

theorem withOut_keepsDecode (s : State) (o : List (Nat × Word)) : KeepsDecode s (s.withOut o) := ⟨rfl, rfl, rfl⟩

/-- A fast `begin_frame` keeps the decode, whichever way it ends. -/
theorem fastBegin_keepsDecode (s : State) : KeepsDecode s (fastBegin s) := by
  have hsize : KeepsDecode s (s.withFrame (resolveFast s.frame)) := withFrame_keepsDecode rfl
  rcases fastBegin_cases s with ⟨code, -, e⟩ | e <;> rw [e]
  · exact hsize.trans (skip_keepsDecode code _)
  · exact hsize.trans ((clampFastWidth_keepsDecode _).trans ((clampFastHeight_keepsDecode _).trans
      ((withOut_keepsDecode _ _).trans (dispatch_keepsDecode _))))

/-! ### begin_frame -/

/-- Either display path keeps what the capture and the decode have set. -/
theorem beginFrame_keepsDecode (s : State) : KeepsDecode (captured s) (beginFrame s) := by
  rw [beginFrame_eq]
  split
  · exact normalBegin_keepsDecode _
  · exact fastBegin_keepsDecode _

/-- After `begin_frame` the configuration is the decode of the slots, but for the fields of the resolver. -/
theorem beginFrame_frame (s : State) :
    (beginFrame s).frame = (decodeRegs s.params s.slots).withResolved (beginFrame s).frame := by
  obtain ⟨-, -, hdecode, -⟩ := captured_samples s
  rw [← hdecode]
  exact (beginFrame_keepsDecode s).frame

/-- Settles O27: the capture and the decode stand when `begin_frame` ends, and each decoded field is arithmetic on its
slot. -/
theorem beginFrameDecodesTheSnapshot : Obligations.BeginFrameDecodesTheSnapshot := by
  intro s hfatal hidle
  obtain ⟨hsampled, hreg, -⟩ := captured_samples s
  have hkeeps := beginFrame_keepsDecode s
  refine ⟨beginFrame s, phaseOperation_clear beginFrame hfatal hidle, hkeeps.reg.trans hreg,
    hkeeps.sampled.trans hsampled, ?_⟩
  rw [beginFrame_frame s]
  let P := s.params
  let r := s.slots
  obtain ⟨hbase16, hbase32⟩ := decodeRegs_bases P r
  obtain ⟨hxAdd, hyAdd⟩ := decodeRegs_adds P r
  exact ⟨decodeRegs_fmt P r, decodeRegs_isBlank P r, decodeRegs_is32 P r, decodeRegs_gdMode P r,
    getLsbD_eq_decide_div_mod r.status 4, getLsbD_eq_decide_div_mod r.status 6, decodeRegs_aaMode P r,
    decodeRegs_covExtract P r, decodeRegs_bilinearEn P r, getLsbD_eq_decide_div_mod r.status 16, decodeRegs_origin P r,
    hbase16, hbase32, decodeRegs_w P r, decodeRegs_vcurParity P r, decodeRegs_vSync P r,
    toNat_ushiftRight_and r.hStart P.hFieldMask, BitVec.toNat_and r.hStart P.hFieldMask,
    toNat_ushiftRight_and r.vStart P.vFieldMask, BitVec.toNat_and r.vStart P.vFieldMask, hxAdd, hyAdd⟩

end Sys2Proof.Machine
end

section
/-! PROOFS. The geometry resolver and the interlace sequencer of a normal frame (`41_frame_geometry_resolver.md`): each
clamp in closed form, the sequencer on the decoded values, and no stage after the clamps changes what either has set. -/

namespace Sys2Proof.Machine

/-! ### The stages of the resolver in closed form -/

/-- Half of a signed number, rounded down, is its shift by one bit (R185). -/
theorem shiftRight_one_eq_div_two (a : Int) : a >>> (1 : Int) = a / 2 := by
  rw [← Nat.cast_one, Int.shiftRight_natCast_right, Int.shiftRight_eq_div_pow, Nat.pow_one, Nat.cast_ofNat]

/-- The horizontal start is cut at 0 from below, and the part cut off goes into the scale start and out of the width
(R187). -/
theorem clampHorizontalStart_eq (C : FrameConfig) :
    clampHorizontalStart C =
      { C with
        xStart := C.xStart + C.xAdd * max (-C.hStart) 0
        hres := C.hres + min C.hStart 0
        hStart := max C.hStart 0
        hStartClamped := decide (C.hStart < 0) } := by
  unfold clampHorizontalStart
  split
  next hneg => simp [hneg, hneg.le]
  next hpos => simp [hpos, not_lt.mp hpos]

/-- The vertical start before its clamp (R193). -/
def rawVerticalStart (P : Params) (C : FrameConfig) : Int := Int.tdiv ((C.vsRaw : Int) - verticalOffset P C) 2

/-- The vertical start is cut at 0 from below, and the part cut off goes into the scale start alone (R194). -/
theorem resolveVerticalStart_eq (P : Params) (C : FrameConfig) :
    resolveVerticalStart P C =
      { C with
        yStart := C.yStart + C.yAdd * max (-rawVerticalStart P C) 0
        vStart := max (rawVerticalStart P C) 0 } := by
  simp only [resolveVerticalStart, rawVerticalStart]
  split
  next hneg => simp [hneg.le]
  next hpos => simp [not_lt.mp hpos]

/-- The width is cut where the buffer ends (R195). -/
theorem clampWidth_frame (s : State) :
    (clampWidth s).frame =
      { s.frame with
        hres := min s.frame.hres (s.params.maxW - s.frame.hStart)
        hresClamped := decide ((s.params.maxW : Int) < s.frame.hStart + s.frame.hres) } := by
  unfold clampWidth
  split
  next hwide => rw [min_eq_right (by omega), decide_eq_true hwide]; rfl
  next hfits => rw [min_eq_left (by omega), decide_eq_false hfits]; rfl

/-- The height is cut where the buffer ends (R196). -/
theorem clampHeight_frame (s : State) :
    (clampHeight s).frame = { s.frame with vres := min s.frame.vres (s.params.maxH - s.frame.vStart) } := by
  unfold clampHeight
  split
  next htall => rw [min_eq_right (by omega)]; rfl
  next hfits => rw [min_eq_left (by omega)]

/-- The sequencer marks the frame interlaced or not, and no other field of it (R188). -/
theorem sequenceInterlace_frame (s : State) :
    (sequenceInterlace s).frame = { s.frame with validInterlace := validInterlaceOf s.reg s.frame } := rfl

@[simp] theorem sequenceInterlace_params (s : State) : (sequenceInterlace s).params = s.params := rfl

@[simp] theorem clampWidth_params (s : State) : (clampWidth s).params = s.params := (clampWidth_keeps s).params

@[simp] theorem clampWidth_pipe (s : State) : (clampWidth s).pipe = s.pipe := by
  unfold clampWidth; split <;> rfl

@[simp] theorem clampHeight_pipe (s : State) : (clampHeight s).pipe = s.pipe := by
  unfold clampHeight; split <;> rfl

/-! ### The geometry as a whole -/

/-- `C` with the geometry of R183 to R196 and the given interlace mark: what the five stages of the resolver come to. -/
def FrameConfig.withGeometry (C : FrameConfig) (P : Params) (valid : Bool) : FrameConfig :=
  let R := resolveStandard P C
  let h := (C.hsRaw : Int) - horizontalOffset P R
  let v := rawVerticalStart P R
  let width := (C.heRaw : Int) - C.hsRaw + min h 0
  { R with
    hStart := max h 0
    hStartClamped := decide (h < 0)
    xStart := C.xStart + C.xAdd * max (-h) 0
    validInterlace := valid
    vStart := max v 0
    yStart := C.yStart + C.yAdd * max (-v) 0
    hres := min width (P.maxW - max h 0)
    hresClamped := decide ((P.maxW : Int) < max h 0 + width)
    vres := min (((C.veRaw : Int) - C.vsRaw) / 2) (P.maxH - max v 0) }

theorem resolveGeometry_frame (s : State) :
    (resolveGeometry s).frame = s.frame.withGeometry s.params (validInterlaceOf s.reg s.frame) := by
  simp only [resolveGeometry, clampHeight_frame, clampWidth_frame, clampWidth_params, State.withFrame_frame,
    State.withFrame_params, State.withFrame_reg, sequenceInterlace_frame, sequenceInterlace_params,
    resolveVerticalStart_eq, clampHorizontalStart_eq, resolveSize, resolveStandard, shiftRight_one_eq_div_two,
    FrameConfig.withGeometry]
  rfl

/-- The sequencer works on decoded values alone: nothing the horizontal geometry has resolved before it counts. -/
theorem resolveGeometry_pipe (s : State) :
    (resolveGeometry s).pipe = sequenceFields (validInterlaceOf s.reg s.frame) s.frame s.pipe := by
  simp only [resolveGeometry, clampHeight_pipe, clampWidth_pipe, clampHorizontalStart_eq]
  rfl

/-- The field selection as a choice on the parity control (R190). -/
theorem selectField_eq (valid : Bool) (control : ParityControl) (C : FrameConfig) (p : PipelineState) :
    selectField valid control C p =
      if valid then
        (if control = .yes then !C.vcurParity
        else if control = .no then
          (if C.vsRaw = p.oldVstart then !p.lowerField else decide (C.vsRaw < p.oldVstart))
        else p.lowerField)
      else p.lowerField := by
  cases valid <;> cases control <;> rfl

/-! ### Before the geometry and after it -/

/-- `C` with the fields that are placed after the geometry (R199 to R203) taken from `R`. -/
def FrameConfig.withPlaced (C R : FrameConfig) : FrameConfig :=
  { C with
    field := R.field, vactive := R.vactive, validh := R.validh, marginLo := R.marginLo, marginHi := R.marginHi }

/-- `p` with the fields that the interlace sequencer neither reads nor writes taken from `q`. -/
def PipelineState.withBlanking (p q : PipelineState) : PipelineState :=
  { p with prevWasBlank := q.prevWasBlank, fade := q.fade, modeLatched := q.modeLatched }

/-- What the geometry and the interlace sequencer have set is the same in `t` as in `s`. -/
structure KeepsGeometry (s t : State) : Prop where
  frame : t.frame = s.frame.withPlaced t.frame
  pipe : t.pipe = s.pipe.withBlanking t.pipe

theorem KeepsGeometry.trans {s t u : State} (h : KeepsGeometry s t) (h' : KeepsGeometry t u) : KeepsGeometry s u where
  frame := h'.frame.trans (by rw [h.frame]; rfl)
  pipe := h'.pipe.trans (by rw [h.pipe]; rfl)

theorem latchMode_keepsGeometry (mode : DisplayMode) (s : State) : KeepsGeometry s (latchMode mode s) := by
  unfold latchMode; split <;> exact ⟨rfl, rfl⟩

/-- A stage that places the frame keeps the geometry. -/
theorem withFrame_keepsGeometry {s : State} {C : FrameConfig} (h : C = s.frame.withPlaced C) :
    KeepsGeometry s (s.withFrame C) := ⟨h, rfl⟩

theorem warnDropped_keepsGeometry (s : State) : KeepsGeometry s (warnDropped s) := ⟨rfl, rfl⟩

theorem placeFrame_keepsGeometry (s : State) : KeepsGeometry s (placeFrame s) := by
  have hactive : KeepsGeometry s
      (s.withFrame (resolveField s.pipe.lowerField (resolveValid s.params (resolveActive s.params s.frame)))) :=
    withFrame_keepsGeometry rfl
  exact hactive.trans ((warnDropped_keepsGeometry _).trans (withFrame_keepsGeometry rfl))

theorem dispatch_keepsGeometry (s : State) : KeepsGeometry s (dispatch s) := by
  unfold dispatch startPool
  simp only
  split <;> exact ⟨rfl, rfl⟩

theorem skip_keepsGeometry (code : SkipCode) (s : State) : KeepsGeometry s (skip code s) := ⟨rfl, rfl⟩

theorem raiseFatal_keepsGeometry (code : FatalCode) (s : State) : KeepsGeometry s (raiseFatal code s) := ⟨rfl, rfl⟩

theorem blankFrame_keepsGeometry (s : State) : KeepsGeometry s (blankFrame s) := by
  unfold blankFrame; split <;> exact ⟨rfl, rfl⟩

theorem activeFrame_keepsGeometry (s : State) : KeepsGeometry s (activeFrame s) := ⟨rfl, rfl⟩

theorem finishBegin_keepsGeometry (s : State) : KeepsGeometry s (finishBegin s) := by
  rcases finishBegin_cases s with ⟨-, -, e⟩ | ⟨-, -, e⟩ | ⟨-, e⟩ <;> rw [e]
  · exact skip_keepsGeometry _ _
  · exact (blankFrame_keepsGeometry s).trans (dispatch_keepsGeometry _)
  · exact (activeFrame_keepsGeometry s).trans (dispatch_keepsGeometry _)

/-- A normal `begin_frame` keeps its geometry and its fields, whichever way it ends. -/
theorem normalBegin_keepsGeometry (s : State) : KeepsGeometry (resolveGeometry s) (normalBegin s) := by
  rcases normalBegin_cases s with ⟨-, e⟩ | ⟨-, -, e⟩ | ⟨-, -, e⟩ <;> rw [e]
  · exact raiseFatal_keepsGeometry _ _
  · exact skip_keepsGeometry _ _
  · exact (placeFrame_keepsGeometry _).trans (finishBegin_keepsGeometry _)

/-- The capture and the decode write no `S`, and the latch only the mode and the fades. -/
theorem captured_pipe (s : State) : (captured s).pipe = s.pipe.withBlanking (captured s).pipe := by
  have hdecode : (captureAndDecode (startFrameStep s)).pipe = s.pipe := by
    simp only [captureAndDecode, warnReserved]
    split <;> simp [startFrameStep, captureRegs]
  have hlatch := (latchMode_keepsGeometry (captureAndDecode (startFrameStep s)).sampled.displayMode
    (captureAndDecode (startFrameStep s))).pipe
  rwa [hdecode] at hlatch

/-! ### A normal begin_frame -/

section
variable {s : State} (hnormal : s.config.displayMode = .normal)
include hnormal

/-- After a normal `begin_frame` the configuration is the resolved decode of the slots, but for the fields
placed later. -/
theorem beginFrame_frame_of_normal :
    (beginFrame s).frame =
      ((decodeRegs s.params s.slots).withGeometry s.params
        (validInterlaceOf s.slots (decodeRegs s.params s.slots))).withPlaced (beginFrame s).frame := by
  obtain ⟨-, hreg, hdecode, -⟩ := captured_samples s
  have hgeometry := resolveGeometry_frame (captured s)
  rw [(captured_keeps s).params, hreg, hdecode] at hgeometry
  rw [beginFrame_eq, if_pos hnormal, ← hgeometry]
  exact (normalBegin_keepsGeometry _).frame

/-- After a normal `begin_frame` `S` is the sequenced `S` from before the frame, but for the mode, the blank mark and
the fades. -/
theorem beginFrame_pipe_of_normal :
    (beginFrame s).pipe =
      (sequenceFields (validInterlaceOf s.slots (decodeRegs s.params s.slots)) (decodeRegs s.params s.slots)
        s.pipe).withBlanking (beginFrame s).pipe := by
  obtain ⟨-, hreg, hdecode, -⟩ := captured_samples s
  have hfields := resolveGeometry_pipe (captured s)
  rw [hreg, hdecode, captured_pipe] at hfields
  rw [beginFrame_eq, if_pos hnormal, (normalBegin_keepsGeometry _).pipe, hfields]
  rfl

end

/-- The starts of the scale, before the clamps carry into them (R170, R171). -/
theorem decodeRegs_scaleStarts (P : Params) (r : Regs) :
    (decodeRegs P r).xStart = (r.xScale.toNat / 65536 % 4096 : Nat) ∧
      (decodeRegs P r).yStart = (r.yScale.toNat / 65536 % 4096 : Nat) :=
  ⟨congrArg Nat.cast (field_eq_div_mod r.xScale 16 12), congrArg Nat.cast (field_eq_div_mod r.yScale 16 12)⟩

/-- Settles O28: the clamps in closed form on the decoded slots, which the rest of `begin_frame` keeps. -/
theorem beginFrameResolvesTheGeometry : Obligations.BeginFrameResolvesTheGeometry := by
  intro s hfatal hidle hnormal
  refine ⟨beginFrame s, phaseOperation_clear beginFrame hfatal hidle, ?_⟩
  obtain ⟨hxStart, hyStart⟩ := decodeRegs_scaleStarts s.params s.slots
  rw [beginFrame_frame_of_normal hnormal]
  simp only [FrameConfig.withPlaced, FrameConfig.withGeometry, rawVerticalStart, verticalOffset, horizontalOffset,
    resolveStandard, hxStart, hyStart, Nat.cast_ite, and_self]

/-- Settles O29: the sequencer on the decoded slots and on `S` from before the frame, which the rest of `begin_frame`
keeps. -/
theorem beginFrameSequencesTheFields : Obligations.BeginFrameSequencesTheFields := by
  intro s hfatal hidle hnormal
  refine ⟨beginFrame s, phaseOperation_clear beginFrame hfatal hidle, ?_⟩
  rw [beginFrame_frame_of_normal hnormal, beginFrame_pipe_of_normal hnormal]
  exact ⟨rfl, rfl, selectField_eq _ _ _ _, rfl, rfl, rfl⟩

end Sys2Proof.Machine
end

section
/-! PROOFS. The request encoding (`30_encoding.md` R131, R135): each operand is read back from the word it is sent in, and
what the decoder reads from any word is in its range. -/

namespace Sys2Proof.Machine

/-! ### Operands read back -/

/-- A number of at most 32 bits is sent as itself. -/
theorem operandWord_toNat_of_lt {n : Nat} (h : n < 2 ^ 32) : (operandWord n).toNat = n := by
  rw [operandWord_toNat]; omega

/-- A 32-bit value is sent as itself. -/
theorem operandWord_toNat_self (v : Word) : operandWord v.toNat = v :=
  BitVec.eq_of_toNat_eq (operandWord_toNat_of_lt v.isLt)

/-- A pixel index of the range of R205 is read back from its two's complement word. -/
theorem indexOperand_indexWord {idx : Int} (h : pixelIndexOk idx = true) :
    indexOperand (operandWord (indexWord idx)) = .ok idx := by
  have hrange : -(2 ^ 27 : Int) ≤ idx ∧ idx < (2 ^ 27 : Int) := by simpa [pixelIndexOk] using h
  have hread : (operandWord (indexWord idx)).toInt = idx := by
    rw [indexWord, operandWord_toNat_self, max_eq_right (by omega), min_eq_left (by omega)]
    exact BitVec.toInt_ofInt_eq_self (by omega) (by omega) (by omega)
  rw [indexOperand, hread, if_pos h]

/-- A scanline or pixel number in range is read back. -/
theorem positionOperand_operandWord {n : Nat} (h : positionOk n = true) :
    positionOperand (operandWord n) = .ok n := by
  have hn : n < 2 ^ 16 := by simpa [positionOk] using h
  rw [positionOperand, operandWord_toNat_of_lt (by omega), if_pos h]

/-- A line and a pixel number in range are read back. -/
theorem pixelOperation_operandWord {y x : Nat} (op : Nat → Nat → Instr)
    (h : (positionOk y && positionOk x) = true) :
    pixelOperation op (operandWord y) (operandWord x) = .ok (op y x) := by
  obtain ⟨hy, hx⟩ := Bool.and_eq_true_iff.mp h
  rw [pixelOperation, positionOperand_operandWord hy, positionOperand_operandWord hx]

/-- A slot and a line are read back. -/
theorem resolveOperation_operandWord (op : Slot → Line → Instr) (slot : Slot) (line : Line) :
    resolveOperation op (operandWord (slotCode slot)) (operandWord (lineCode line)) = .ok (op slot line) := by
  cases slot <;> cases line <;> rfl

/-- A slot is read back. -/
theorem operand_slotOfCode (slot : Slot) : operand (slotOfCode (operandWord (slotCode slot)).toNat) = .ok slot := by
  cases slot <;> rfl

/-- A corner is read back. -/
theorem operand_cornerOfCode (corner : Corner) :
    operand (cornerOfCode (operandWord (cornerCode corner)).toNat) = .ok corner := by
  cases corner <;> rfl

/-- A register is read back. -/
theorem operand_regOfIndex (reg : RegName) : operand (regOfIndex (operandWord (regIndex reg)).toNat) = .ok reg := by
  cases reg <;> rfl

/-- A flag is read back. -/
theorem flagOfCode_flagCode (b : Bool) : flagOfCode (operandWord (flagCode b)).toNat = some b := by
  cases b <;> rfl

/-- A display mode is read back. -/
theorem modeOfCode_modeCode (m : DisplayMode) : modeOfCode (operandWord (modeCode m)).toNat = some m := by
  cases m <;> rfl

/-- A configuration write in range is read back. -/
theorem cfgOfWords_cfgWords {setting : CfgSetting} (h : cfgSettingOk setting = true) :
    cfgOfWords (operandWord (cfgWords setting).1).toNat (operandWord (cfgWords setting).2).toNat = some setting := by
  cases setting with
  | displayMode m => exact congrArg (Option.map CfgSetting.displayMode) (modeOfCode_modeCode m)
  | tvFade on => exact congrArg (Option.map CfgSetting.tvFade) (flagOfCode_flagCode on)
  | numWorkers n =>
    exact congrArg (fun k => some (CfgSetting.numWorkers k)) (operandWord_toNat_of_lt (of_decide_eq_true h))
  | widescreen on => exact congrArg (Option.map CfgSetting.widescreen) (flagOfCode_flagCode on)
  | traceRecord on => exact congrArg (Option.map CfgSetting.traceRecord) (flagOfCode_flagCode on)
  | zbAddress a =>
    have ha : a < 2 ^ 24 := of_decide_eq_true h
    change (if (operandWord a).toNat < 2 ^ 24 then some (CfgSetting.zbAddress (operandWord a).toNat) else none) = _
    rw [operandWord_toNat_of_lt (by omega), if_pos ha]

/-- Settles O1: the STATUS pattern and the stage select the operation again, and each operand is read back. -/
theorem decodeOfEncodeIsIdentity : Obligations.DecodeOfEncodeIsIdentity := by
  intro i h
  cases i with
  | fetch5551 idx => exact congrArg (Except.map Instr.fetch5551) (indexOperand_indexWord h)
  | fetch8888 idx => exact congrArg (Except.map Instr.fetch8888) (indexOperand_indexWord h)
  | divotOff corner => exact congrArg (Except.map Instr.divotOff) (operand_cornerOfCode corner)
  | divotOn corner => exact congrArg (Except.map Instr.divotOn) (operand_cornerOfCode corner)
  | resolvePass slot => exact congrArg (Except.map Instr.resolvePass) (operand_slotOfCode slot)
  | restore16 slot line => exact resolveOperation_operandWord Instr.restore16 slot line
  | restore32 slot line => exact resolveOperation_operandWord Instr.restore32 slot line
  | blend16 slot line => exact resolveOperation_operandWord Instr.blend16 slot line
  | blend32 slot line => exact resolveOperation_operandWord Instr.blend32 slot line
  | hblankClip n => exact congrArg (Except.map Instr.hblankClip) (positionOperand_operandWord h)
  | fetchState y => exact congrArg (Except.map Instr.fetchState) (positionOperand_operandWord h)
  | scanline y => exact congrArg (Except.map Instr.scanline) (positionOperand_operandWord h)
  | wreg reg v =>
    calc decode (encode (.wreg reg v))
        = (operand (regOfIndex (operandWord (regIndex reg)).toNat)).map
            fun r => Instr.wreg r (operandWord v.toNat) := rfl
      _ = .ok (.wreg reg v) := by rw [operand_regOfIndex, operandWord_toNat_self]; rfl
  | cfg setting => exact congrArg (fun o => Except.map Instr.cfg (operand o)) (cfgOfWords_cfgWords h)
  | rawColor16 y x => exact pixelOperation_operandWord Instr.rawColor16 h
  | rawColor32 y x => exact pixelOperation_operandWord Instr.rawColor32 h
  | depth y x => exact pixelOperation_operandWord Instr.depth h
  | coverage y x => exact pixelOperation_operandWord Instr.coverage h
  | _ => rfl

/-! ### What the decoder reads is in range -/

/-- A mapped result is the image of a result. -/
theorem exceptMap_eq_ok {ε α β : Type} {f : α → β} {x : Except ε α} {i : β} (h : x.map f = .ok i) :
    ∃ v, x = .ok v ∧ f v = i := by
  cases x with
  | ok v => exact ⟨v, rfl, Except.ok.inj h⟩
  | error e => cases h

theorem pixelIndexOk_of_indexOperand {a : Word} {idx : Int} (h : indexOperand a = .ok idx) :
    pixelIndexOk idx = true := by
  unfold indexOperand at h
  split at h
  next hok => cases h; exact hok
  next => cases h

theorem positionOk_of_positionOperand {a : Word} {n : Nat} (h : positionOperand a = .ok n) : positionOk n = true := by
  unfold positionOperand at h
  split at h
  next hok => cases h; exact hok
  next => cases h

theorem pixelOperation_eq_ok {op : Nat → Nat → Instr} {a b : Word} {i : Instr} (h : pixelOperation op a b = .ok i) :
    ∃ y x, (positionOk y && positionOk x) = true ∧ i = op y x := by
  unfold pixelOperation at h
  split at h
  next y x hy hx =>
    cases h
    exact ⟨y, x, by simp [positionOk_of_positionOperand hy, positionOk_of_positionOperand hx], rfl⟩
  next => cases h

theorem resolveOperation_eq_ok {op : Slot → Line → Instr} {a b : Word} {i : Instr}
    (h : resolveOperation op a b = .ok i) : ∃ slot line, i = op slot line := by
  unfold resolveOperation at h
  split at h
  next slot line _ _ => cases h; exact ⟨slot, line, rfl⟩
  next => cases h

/-- A configuration write that is read from a value word has its value in range. -/
theorem cfgSettingOk_of_cfgOfWords {name : Nat} {value : Word} {setting : CfgSetting}
    (h : cfgOfWords name value.toNat = some setting) : cfgSettingOk setting = true := by
  unfold cfgOfWords at h
  split at h
  case h_1 => obtain ⟨m, -, rfl⟩ := Option.map_eq_some_iff.mp h; rfl
  case h_2 => obtain ⟨b, -, rfl⟩ := Option.map_eq_some_iff.mp h; rfl
  case h_3 => cases h; exact decide_eq_true value.isLt
  case h_4 => obtain ⟨b, -, rfl⟩ := Option.map_eq_some_iff.mp h; rfl
  case h_5 => obtain ⟨b, -, rfl⟩ := Option.map_eq_some_iff.mp h; rfl
  case h_6 =>
    split at h
    next ha => cases h; exact decide_eq_true ha
    next => cases h
  case h_7 => cases h

/-- Every operation some stage reads has its operands in range. -/
theorem wellFormed_of_decodeStage {stage : Stage} {status a b : Word} {i : Instr}
    (h : decodeStage stage status a b = .ok i) : i.wellFormed = true := by
  cases stage <;> simp only [decodeStage] at h
  case frameKind =>
    split at h
    case h_1 => cases h; rfl
    case h_2 => cases h; rfl
    case h_3 => obtain ⟨idx, hidx, rfl⟩ := exceptMap_eq_ok h; exact pixelIndexOk_of_indexOperand hidx
    case h_4 => obtain ⟨idx, hidx, rfl⟩ := exceptMap_eq_ok h; exact pixelIndexOk_of_indexOperand hidx
  case aaMode => split at h <;> cases h <;> rfl
  case resolveFull =>
    split at h
    case h_1 => obtain ⟨slot, -, rfl⟩ := exceptMap_eq_ok h; rfl
    case h_2 => obtain ⟨slot, line, rfl⟩ := resolveOperation_eq_ok h; rfl
    case h_3 => obtain ⟨slot, line, rfl⟩ := resolveOperation_eq_ok h; rfl
    case h_4 => cases h
  case resolvePartial =>
    split at h
    case h_1 => obtain ⟨slot, line, rfl⟩ := resolveOperation_eq_ok h; rfl
    case h_2 => obtain ⟨slot, line, rfl⟩ := resolveOperation_eq_ok h; rfl
    case h_3 => cases h
  case divot => split at h <;> (obtain ⟨corner, -, rfl⟩ := exceptMap_eq_ok h; rfl)
  case gammaDither => split at h <;> cases h <;> rfl
  case scan => split at h <;> cases h <;> rfl
  case rawColor =>
    split at h
    case h_1 => obtain ⟨y, x, hyx, rfl⟩ := pixelOperation_eq_ok h; exact hyx
    case h_2 => obtain ⟨y, x, hyx, rfl⟩ := pixelOperation_eq_ok h; exact hyx
    case h_3 => cases h
  case lerp => split at h <;> cases h; rfl
  case hblankClip => obtain ⟨n, hn, rfl⟩ := exceptMap_eq_ok h; exact positionOk_of_positionOperand hn
  case fetchState => obtain ⟨n, hn, rfl⟩ := exceptMap_eq_ok h; exact positionOk_of_positionOperand hn
  case scanline => obtain ⟨n, hn, rfl⟩ := exceptMap_eq_ok h; exact positionOk_of_positionOperand hn
  case wreg => obtain ⟨reg, -, rfl⟩ := exceptMap_eq_ok h; rfl
  case cfg =>
    obtain ⟨setting, hsetting, rfl⟩ := exceptMap_eq_ok h
    unfold operand at hsetting
    split at hsetting
    next hread => cases hsetting; exact cfgSettingOk_of_cfgOfWords hread
    next => cases hsetting
  case depth => obtain ⟨y, x, hyx, rfl⟩ := pixelOperation_eq_ok h; exact hyx
  case coverage => obtain ⟨y, x, hyx, rfl⟩ := pixelOperation_eq_ok h; exact hyx
  all_goals cases h; rfl

/-- Settles O2: a request that decodes has four words and a stage, and every stage reads operands in range. -/
theorem decodedOperationIsWellFormed : Obligations.DecodedOperationIsWellFormed := by
  intro r i h
  unfold decode at h
  split at h
  next status stage a b =>
    split at h
    next st _ => exact wellFormed_of_decodeStage h
    next => cases h
  next => cases h

/-- Settles O3: each word has its bits where the STATUS encoding puts them. -/
theorem wordsOfTheSpecDecode : Obligations.WordsOfTheSpecDecode := by
  unfold Obligations.WordsOfTheSpecDecode
  decide

/-- Settles O4: the four ways a step goes, by whether a request is pending and what it decodes to. -/
theorem stepRunsTheDecodedOperation : Obligations.StepRunsTheDecodedOperation := by
  intro s r rest
  refine ⟨fun h => ?none, fun h => ⟨fun i hstore hop => ?operation, fun st hstore => ?store, fun why hstore hop => ?reject⟩⟩
  case none => simp [step, takeRequest, h]
  case operation => simp [step, takeRequest, runRequest, h, hstore, hop]
  case store => simp [step, takeRequest, runRequest, h, hstore]
  case reject => simp [step, takeRequest, runRequest, h, hstore, hop]

end Sys2Proof.Machine
end

section
/-! PROOFS. What an operation and a step can do, said once: one constructor for each kind of effect, with the guard it
stands behind. Every invariant below is a case split over these. -/

namespace Sys2Proof.Machine

/-! ### The shared effects of operations -/

/-- The gamma and dither stage does nothing to a clipped pixel, and else writes the colour latch and the owner's seed. -/
theorem gammaDitherStage_cases (mode : GdMode) (s : State) :
    (s.latch.clipped = true ∧ gammaDitherStage mode s = s) ∨
      (s.latch.clipped = false ∧
        gammaDitherStage mode s =
          (s.withLatch { s.latch with
            colour := (finishPixel s.params mode s.draws s.scan.y s.scan.i
              (getWorker s.params s.workers (currentWorker s)).seed s.latch.colour).1 }).withWorkers
          (putWorker s.params (currentWorker s)
            { getWorker s.params s.workers (currentWorker s) with
              seed := (finishPixel s.params mode s.draws s.scan.y s.scan.i
                (getWorker s.params s.workers (currentWorker s)).seed s.latch.colour).2 } s.workers)) := by
  cases h : s.latch.clipped <;> simp [gammaDitherStage, h]

/-- A fast pixel of the frame: one word stored, and the owner's seed after it. -/
theorem fastPixel_inside {y x : Nat} {s : State} (c : Colour) (h : insideFrame s y x = true) :
    fastPixel y x c s =
      ((s.withOut (writeOut s.params y x
        (pack (finishPixel s.params s.frame.gdMode s.draws y x
          (getWorker s.params s.workers (y % workerCount s.params s.sampled)).seed c).1) s.out)).withWorkers
        (putWorker s.params (y % workerCount s.params s.sampled)
          { getWorker s.params s.workers (y % workerCount s.params s.sampled) with
            seed := (finishPixel s.params s.frame.gdMode s.draws y x
              (getWorker s.params s.workers (y % workerCount s.params s.sampled)).seed c).2 } s.workers)).withScan
        { s.scan with y := y, i := x + 1 } := by
  rw [fastPixel, if_pos h]

/-- A fast pixel outside the frame. -/
theorem fastPixel_outside {y x : Nat} {s : State} (c : Colour) (h : insideFrame s y x = false) :
    fastPixel y x c s = s := by
  rw [fastPixel, if_neg (by simp [h])]

/-! ### One operation -/

/-- The state `t` that a stage of the pixel pipeline, or a scanline, can leave of `s`. -/
inductive DrawsPixel (s : State) : Instr → State → Prop
  | latched (i : Instr) (l : PixelLatches)
      (hi : ∀ y, i ∉ [Instr.frameStep, .beginFrame, .render, .present, .scanline y])
      (hmode : i ∉ [Instr.fmtBlank, .modeNormal]) : DrawsPixel s i (s.withLatch l)
  | dithered (i : Instr) (mode : GdMode) (hi : i ∈ [Instr.gdDither, .gdGammaDither]) :
      DrawsPixel s i (gammaDitherStage mode s)
  | clip (n : Nat) : DrawsPixel s (.hblankClip n) (startPixel n s)
  | fetchState (y : Nat) : DrawsPixel s (.fetchState y) (startScanline y s)
  | pixelWrite (hphase : s.scan.phase = .render) : DrawsPixel s .pixelWrite (storePixel s)
  | fastPixel (i : Instr) (y x : Nat) (c : Colour)
      (hi : i ∈ [Instr.rawColor16 y x, .rawColor32 y x, .depth y x, .coverage y x])
      (hphase : s.scan.phase = .render) : DrawsPixel s i (fastPixel y x c s)
  | scanline (y : Nat) (hy : y ∈ renderedScanlines s) (hphase : s.scan.phase = .render) :
      DrawsPixel s (.scanline y) (renderScanline s y)
  | noScanline (y : Nat) (hy : y ∉ renderedScanlines s) (hphase : s.scan.phase = .render) :
      DrawsPixel s (.scanline y) s

/-- The state `t` that a part of `begin_frame` asked for alone can leave of `s`. -/
inductive SetsUp (s : State) : Instr → State → Prop
  | blankSkip (h : blankSkips s = true) : SetsUp s .fmtBlank (skip .s2 (s.withHandedOver false))
  | blank (h : blankSkips s = false) : SetsUp s .fmtBlank (blankFrame (s.withHandedOver false))
  | reserved : SetsUp s .fmtReserved (warn .w1 (s.withFrame (withFormat s.frame .reserved)))
  | aaMode (i : Instr) (m : AaMode) (hi : i ∈ [Instr.aaMode00, .aaMode01, .aaMode10, .aaMode11]) :
      SetsUp s i (s.withFrame (withAaMode s.frame m))
  | progressive : SetsUp s .scanProgressive (applyScan false s)
  | interlaced : SetsUp s .scanInterlaced (warnDropped (applyScan true s))
  | modeNormal :
      SetsUp s .modeNormal
        (latchMode .normal ((s.withHandedOver false).withSampled { s.sampled with displayMode := .normal }))

/-- The state `t` that operation `i` can leave of `s`, with the guard it runs behind. -/
inductive Runs (s : State) : Instr → State → Prop
  | wreg (n : RegName) (v : Word) : Runs s (.wreg n v) (s.withSlots (s.slots.set n v))
  | cfg (c : CfgSetting) : Runs s (.cfg c) (s.withConfig (s.config.set c))
  | pixel {i : Instr} {t : State} (hfatal : s.fatal = false) (h : DrawsPixel s i t) : Runs s i t
  | setup {i : Instr} {t : State} (hfatal : s.fatal = false) (hrender : s.scan.phase ≠ .render)
      (hpresent : s.scan.phase ≠ .present) (h : SetsUp s i t) : Runs s i t
  | render (hfatal : s.fatal = false) (hphase : s.scan.phase = .render) : Runs s .render (renderFrame s)
  | present (hfatal : s.fatal = false) (hphase : s.scan.phase = .present) : Runs s .present (presentFrame s)
  | beginFrame (hfatal : s.fatal = false) (hphase : s.scan.phase = .idle) : Runs s .beginFrame (beginFrame s)
  | frameStep (hfatal : s.fatal = false) (hphase : s.scan.phase = .idle) : Runs s .frameStep (frameStep s)

/-- An operation on the pixel latches is one of the latched kind. -/
theorem runs_of_blockOperation {i : Instr} {f : State → PixelLatches} {s t : State}
    (h : blockOperation (fun s => s.withLatch (f s)) s = .next t)
    (hi : ∀ y, i ∉ [Instr.frameStep, .beginFrame, .render, .present, .scanline y])
    (hmode : i ∉ [Instr.fmtBlank, .modeNormal]) : Runs s i t := by
  obtain ⟨hfatal, rfl⟩ := blockOperation_next_iff.mp h
  exact .pixel hfatal (.latched i (f s) hi hmode)

/-- A fast pixel operation is one of the fast kind. -/
theorem runs_of_fastPixel {i : Instr} {y x : Nat} {c : State → Colour} {s t : State}
    (h : phaseOperation .render (fun s => fastPixel y x (c s) s) s = .next t)
    (hi : i ∈ [Instr.rawColor16 y x, .rawColor32 y x, .depth y x, .coverage y x]) : Runs s i t := by
  obtain ⟨hfatal, hphase, rfl⟩ := phaseOperation_next_iff.mp h
  exact .pixel hfatal (.fastPixel i y x (c s) hi hphase)

/-- An antialiasing mode is one of its kind. -/
theorem runs_of_aaMode {i : Instr} {m : AaMode} {s t : State}
    (h : setupOperation (fun s => s.withFrame (withAaMode s.frame m)) s = .next t)
    (hi : i ∈ [Instr.aaMode00, .aaMode01, .aaMode10, .aaMode11]) : Runs s i t := by
  obtain ⟨hfatal, hr, hp, rfl⟩ := setupOperation_next_iff.mp h
  exact .setup hfatal hr hp (.aaMode i m hi)

/-- Whatever state an operation answers is one it can leave. -/
theorem runs_of_exec {i : Instr} {s t : State} (h : exec i s = .next t) : Runs s i t := by
  cases i with dsimp only [exec] at h
  | fmtBlank =>
    obtain ⟨hfatal, hr, hp, rfl⟩ := setupOperation_next_iff.mp h
    have hskips : blankSkips (s.withHandedOver false) = blankSkips s := rfl
    cases hs : blankSkips s
    · simpa [hskips, hs] using Runs.setup hfatal hr hp (.blank hs)
    · simpa [hskips, hs] using Runs.setup hfatal hr hp (.blankSkip hs)
  | fmtReserved =>
    obtain ⟨hfatal, hr, hp, rfl⟩ := setupOperation_next_iff.mp h
    exact .setup hfatal hr hp .reserved
  | fetch5551 idx => exact runs_of_blockOperation h (by simp) (by simp)
  | fetch8888 idx => exact runs_of_blockOperation h (by simp) (by simp)
  | gdNone =>
    obtain ⟨hfatal, rfl⟩ := blockOperation_next_iff.mp h
    exact .pixel hfatal (.latched .gdNone s.latch (by simp) (by simp))
  | gdDither =>
    obtain ⟨hfatal, rfl⟩ := blockOperation_next_iff.mp h
    exact .pixel hfatal (.dithered .gdDither .dither (by simp))
  | gdGamma => exact runs_of_blockOperation h (by simp) (by simp)
  | gdGammaDither =>
    obtain ⟨hfatal, rfl⟩ := blockOperation_next_iff.mp h
    exact .pixel hfatal (.dithered .gdGammaDither .gammaDither (by simp))
  | divotOff corner => exact runs_of_blockOperation h (by simp) (by simp)
  | divotOn corner => exact runs_of_blockOperation h (by simp) (by simp)
  | scanProgressive =>
    obtain ⟨hfatal, hr, hp, rfl⟩ := setupOperation_next_iff.mp h
    exact .setup hfatal hr hp .progressive
  | scanInterlaced =>
    obtain ⟨hfatal, hr, hp, rfl⟩ := setupOperation_next_iff.mp h
    exact .setup hfatal hr hp .interlaced
  | aaMode00 => exact runs_of_aaMode h (by simp)
  | aaMode01 => exact runs_of_aaMode h (by simp)
  | aaMode10 => exact runs_of_aaMode h (by simp)
  | aaMode11 => exact runs_of_aaMode h (by simp)
  | resolvePass slot => exact runs_of_blockOperation h (by simp) (by simp)
  | restore16 slot line => exact runs_of_blockOperation h (by simp) (by simp)
  | restore32 slot line => exact runs_of_blockOperation h (by simp) (by simp)
  | blend16 slot line => exact runs_of_blockOperation h (by simp) (by simp)
  | blend32 slot line => exact runs_of_blockOperation h (by simp) (by simp)
  | lerp => exact runs_of_blockOperation h (by simp) (by simp)
  | noLerp => exact runs_of_blockOperation h (by simp) (by simp)
  | hblankClip n =>
    obtain ⟨hfatal, rfl⟩ := blockOperation_next_iff.mp h
    exact .pixel hfatal (.clip n)
  | pixelWrite =>
    obtain ⟨hfatal, hphase, rfl⟩ := phaseOperation_next_iff.mp h
    exact .pixel hfatal (.pixelWrite hphase)
  | fetchState y =>
    obtain ⟨hfatal, rfl⟩ := blockOperation_next_iff.mp h
    exact .pixel hfatal (.fetchState y)
  | scanline y =>
    obtain ⟨hfatal, hphase, rfl⟩ := phaseOperation_next_iff.mp h
    by_cases hy : y ∈ renderedScanlines s
    · simpa [hy] using Runs.pixel hfatal (.scanline y hy hphase)
    · simpa [hy] using Runs.pixel hfatal (.noScanline y hy hphase)
  | wreg n v => cases h; exact .wreg n v
  | cfg c => cases h; exact .cfg c
  | frameStep =>
    obtain ⟨hfatal, hphase, rfl⟩ := phaseOperation_next_iff.mp h
    exact .frameStep hfatal hphase
  | beginFrame =>
    obtain ⟨hfatal, hphase, rfl⟩ := phaseOperation_next_iff.mp h
    exact .beginFrame hfatal hphase
  | render =>
    obtain ⟨hfatal, hphase, rfl⟩ := phaseOperation_next_iff.mp h
    exact .render hfatal hphase
  | present =>
    obtain ⟨hfatal, hphase, rfl⟩ := phaseOperation_next_iff.mp h
    exact .present hfatal hphase
  | modeNormal =>
    obtain ⟨hfatal, hr, hp, rfl⟩ := setupOperation_next_iff.mp h
    exact .setup hfatal hr hp .modeNormal
  | rawColor16 y x => exact runs_of_fastPixel h (by simp)
  | rawColor32 y x => exact runs_of_fastPixel h (by simp)
  | depth y x => exact runs_of_fastPixel h (by simp)
  | coverage y x => exact runs_of_fastPixel h (by simp)

/-- `t` differs from `s` in the output buffer, the workers, the scan position and the pixel latches at most. -/
def PixelOnly (s t : State) : Prop :=
  t = (((s.withOut t.out).withWorkers t.workers).withScan t.scan).withLatch t.latch

/-- A stage of the pixel pipeline, or a scanline, changes nothing else. -/
theorem DrawsPixel.pixelOnly {s t : State} {i : Instr} (h : DrawsPixel s i t) : PixelOnly s t := by
  cases h with
  | latched i l hi hmode => rfl
  | dithered i mode hi => rcases gammaDitherStage_cases mode s with ⟨-, e⟩ | ⟨-, e⟩ <;> rw [e] <;> rfl
  | clip n => rcases moveToPixel_cases n s with ⟨-, e⟩ | ⟨-, e⟩ <;> rw [startPixel, e] <;> rfl
  | fetchState y => rcases moveToScanline_cases y s with ⟨-, e⟩ | ⟨-, e⟩ <;> rw [startScanline, e] <;> rfl
  | pixelWrite hphase => rcases storePixel_cases s with ⟨-, e⟩ | ⟨-, e⟩ <;> rw [e] <;> rfl
  | fastPixel i y x c hi hphase => rcases fastPixel_cases y x c s with ⟨-, e⟩ | ⟨-, e⟩ <;> rw [e] <;> rfl
  | scanline y hy hphase => rfl
  | noScanline y hy hphase => rfl

/-! ### One step -/

/-- What a step can do: nothing with no request, one host store, or one operation. -/
theorem step_cases {s t : State} (h : step s = .next t) :
    s = t ∨ ∃ r rest, s.requests = r :: rest ∧
      ((∃ st m, storeAllowed s = true ∧ storedMemory s.params s.memory st = some m ∧
          t = (s.withRequests rest).withMemory m) ∨
        ∃ i, decode r = .ok i ∧ Runs (s.withRequests rest) i t) := by
  rcases step_next_iff.mp h with ⟨-, rfl⟩ | ⟨r, rest, hr, ⟨st, -, hst⟩ | ⟨-, i, hi, hrun⟩⟩
  · exact .inl rfl
  · obtain ⟨hallowed, m, hm, rfl⟩ := execStore_next_iff.mp hst
    exact .inr ⟨r, rest, hr, .inl ⟨st, m, hallowed, hm, rfl⟩⟩
  · exact .inr ⟨r, rest, hr, .inr ⟨i, hi, runs_of_exec hrun⟩⟩

/-- A relation that no request, no host store and no operation breaks holds of every step. -/
theorem step_relates (R : State → State → Prop) (hrefl : ∀ s, R s s)
    (hstore : ∀ s rest st m, storeAllowed s = true → storedMemory s.params s.memory st = some m →
      R s ((s.withRequests rest).withMemory m))
    (hruns : ∀ s rest i t, Runs (s.withRequests rest) i t → R s t) {s t : State} (h : step s = .next t) : R s t := by
  rcases step_cases h with rfl | ⟨r, rest, -, ⟨st, m, hallowed, hm, rfl⟩ | ⟨i, -, hrun⟩⟩
  · exact hrefl s
  · exact hstore s rest st m hallowed hm
  · exact hruns s rest i t hrun

end Sys2Proof.Machine
end

section
/-! PROOFS. What each stage of `begin_frame` leaves of the control fields, of the form of the state, of the ranges of `C`
and of the log, and how `begin_frame` and a frame step end. -/

namespace Sys2Proof.Machine

/-! ### Dispatch in closed form -/

/-- The pool at dispatch has the frame's worker count; its workers keep their seeds when the count has not changed
(R349, R352). -/
theorem startPool_eq (s : State) :
    startPool s = s.withPool (workerCount s.params s.sampled)
      (if s.pool = workerCount s.params s.sampled then invalidateCaches s.params s.workers else []) := by
  unfold startPool
  simp only
  split
  next hcount => rw [← hcount]; rfl
  next => rfl

theorem dispatch_eq (s : State) :
    dispatch s = (s.withPool (workerCount s.params s.sampled)
      (if s.pool = workerCount s.params s.sampled then invalidateCaches s.params s.workers else [])).withPhase
        .render := by
  rw [dispatch, startPool_eq]

@[simp] theorem dispatch_params (s : State) : (dispatch s).params = s.params := by simp [dispatch_eq]
@[simp] theorem dispatch_memory (s : State) : (dispatch s).memory = s.memory := by simp [dispatch_eq]
@[simp] theorem dispatch_scan (s : State) : (dispatch s).scan = { s.scan with phase := .render } := by simp [dispatch_eq]
@[simp] theorem dispatch_sampled (s : State) : (dispatch s).sampled = s.sampled := by simp [dispatch_eq]
@[simp] theorem dispatch_frame (s : State) : (dispatch s).frame = s.frame := by simp [dispatch_eq]
@[simp] theorem dispatch_pipe (s : State) : (dispatch s).pipe = s.pipe := by simp [dispatch_eq]
@[simp] theorem dispatch_out (s : State) : (dispatch s).out = s.out := by simp [dispatch_eq]
@[simp] theorem dispatch_log (s : State) : (dispatch s).log = s.log := by simp [dispatch_eq]
@[simp] theorem dispatch_fatal (s : State) : (dispatch s).fatal = s.fatal := by simp [dispatch_eq]
@[simp] theorem dispatch_result (s : State) : (dispatch s).result = s.result := by simp [dispatch_eq]
@[simp] theorem dispatch_handedOver (s : State) : (dispatch s).handedOver = s.handedOver := by simp [dispatch_eq]
@[simp] theorem dispatch_pool (s : State) : (dispatch s).pool = workerCount s.params s.sampled := by simp [dispatch_eq]
@[simp] theorem dispatch_workers (s : State) :
    (dispatch s).workers =
      if s.pool = workerCount s.params s.sampled then invalidateCaches s.params s.workers else [] := by
  simp [dispatch_eq]

/-- After dispatch every cache is empty. -/
theorem dispatch_caches {s : State} : ∀ e ∈ (dispatch s).workers, e.2.caches = {} := by
  intro e he
  rw [dispatch_workers] at he
  split at he
  next => exact (mem_invalidateCaches e he).1
  next => cases he

/-! ### The control fields -/

/-- The scan position, the marks and the workers are the same in `t` as in `s`. -/
structure KeepsControl (s t : State) : Prop where
  scan : t.scan = s.scan
  sampled : t.sampled = s.sampled
  handedOver : t.handedOver = s.handedOver
  fatal : t.fatal = s.fatal
  result : t.result = s.result
  pool : t.pool = s.pool
  workers : t.workers = s.workers
  params : t.params = s.params
  memory : t.memory = s.memory

theorem KeepsControl.refl (s : State) : KeepsControl s s := ⟨rfl, rfl, rfl, rfl, rfl, rfl, rfl, rfl, rfl⟩

theorem KeepsControl.trans {s t u : State} (h : KeepsControl s t) (h' : KeepsControl t u) : KeepsControl s u :=
  ⟨h'.1.trans h.1, h'.2.trans h.2, h'.3.trans h.3, h'.4.trans h.4, h'.5.trans h.5, h'.6.trans h.6, h'.7.trans h.7,
    h'.8.trans h.8, h'.9.trans h.9⟩

theorem captureAndDecode_keepsControl (s : State) : KeepsControl s (captureAndDecode s) := by
  simp only [captureAndDecode, warnReserved]
  split <;> exact ⟨rfl, rfl, rfl, rfl, rfl, rfl, rfl, rfl, rfl⟩

theorem latchMode_keepsControl (mode : DisplayMode) (s : State) : KeepsControl s (latchMode mode s) := by
  unfold latchMode; split <;> exact ⟨rfl, rfl, rfl, rfl, rfl, rfl, rfl, rfl, rfl⟩

theorem captured_keepsControl (s : State) : KeepsControl (startFrameStep s) (captured s) :=
  (captureAndDecode_keepsControl _).trans (latchMode_keepsControl _ _)

theorem clampWidth_keepsControl (s : State) : KeepsControl s (clampWidth s) := by
  unfold clampWidth; split <;> exact ⟨rfl, rfl, rfl, rfl, rfl, rfl, rfl, rfl, rfl⟩

theorem clampHeight_keepsControl (s : State) : KeepsControl s (clampHeight s) := by
  unfold clampHeight; split <;> exact ⟨rfl, rfl, rfl, rfl, rfl, rfl, rfl, rfl, rfl⟩

theorem sequenceInterlace_keepsControl (s : State) : KeepsControl s (sequenceInterlace s) :=
  ⟨rfl, rfl, rfl, rfl, rfl, rfl, rfl, rfl, rfl⟩

theorem withFrame_keepsControl (s : State) (C : FrameConfig) : KeepsControl s (s.withFrame C) :=
  ⟨rfl, rfl, rfl, rfl, rfl, rfl, rfl, rfl, rfl⟩

theorem resolveGeometry_keepsControl (s : State) : KeepsControl s (resolveGeometry s) :=
  (withFrame_keepsControl s _).trans ((sequenceInterlace_keepsControl _).trans
    ((withFrame_keepsControl _ _).trans ((clampWidth_keepsControl _).trans (clampHeight_keepsControl _))))

theorem warnDropped_keepsControl (s : State) : KeepsControl s (warnDropped s) :=
  ⟨rfl, rfl, rfl, rfl, rfl, rfl, rfl, rfl, rfl⟩

theorem placeFrame_keepsControl (s : State) : KeepsControl s (placeFrame s) :=
  (withFrame_keepsControl s _).trans ((warnDropped_keepsControl _).trans (withFrame_keepsControl _ _))

theorem blankFrame_keepsControl (s : State) : KeepsControl s (blankFrame s) := by
  unfold blankFrame; split <;> exact ⟨rfl, rfl, rfl, rfl, rfl, rfl, rfl, rfl, rfl⟩

theorem activeFrame_keepsControl (s : State) : KeepsControl s (activeFrame s) :=
  ⟨rfl, rfl, rfl, rfl, rfl, rfl, rfl, rfl, rfl⟩

theorem clampFastWidth_keepsControl (s : State) : KeepsControl s (clampFastWidth s) := by
  unfold clampFastWidth; split <;> exact ⟨rfl, rfl, rfl, rfl, rfl, rfl, rfl, rfl, rfl⟩

theorem clampFastHeight_keepsControl (s : State) : KeepsControl s (clampFastHeight s) := by
  unfold clampFastHeight; split <;> exact ⟨rfl, rfl, rfl, rfl, rfl, rfl, rfl, rfl, rfl⟩

theorem withOut_keepsControl (s : State) (o : List (Nat × Word)) : KeepsControl s (s.withOut o) :=
  ⟨rfl, rfl, rfl, rfl, rfl, rfl, rfl, rfl, rfl⟩

/-! ### How begin_frame ends -/

/-- `t` is `u` after a Skip, a Fatal F1 or the dispatch. -/
def EndsBegin (u t : State) : Prop := (∃ code, t = skip code u) ∨ t = raiseFatal .f1 u ∨ t = dispatch u

theorem normalBegin_ends (s : State) : ∃ u, KeepsControl s u ∧ EndsBegin u (normalBegin s) := by
  have hgeometry := resolveGeometry_keepsControl s
  have hplaced := hgeometry.trans (placeFrame_keepsControl _)
  rcases normalBegin_cases s with ⟨-, e⟩ | ⟨-, -, e⟩ | ⟨-, -, e⟩
  · exact ⟨_, hgeometry, .inr (.inl e)⟩
  · exact ⟨_, hgeometry, .inl ⟨_, e⟩⟩
  · rcases finishBegin_cases (placeFrame (resolveGeometry s)) with ⟨-, -, e'⟩ | ⟨-, -, e'⟩ | ⟨-, e'⟩
    · exact ⟨_, hplaced, .inl ⟨_, e.trans e'⟩⟩
    · exact ⟨_, hplaced.trans (blankFrame_keepsControl _), .inr (.inr (e.trans e'))⟩
    · exact ⟨_, hplaced.trans (activeFrame_keepsControl _), .inr (.inr (e.trans e'))⟩

theorem fastBegin_ends (s : State) : ∃ u, KeepsControl s u ∧ EndsBegin u (fastBegin s) := by
  have hsize := withFrame_keepsControl s (resolveFast s.frame)
  rcases fastBegin_cases s with ⟨code, -, e⟩ | e
  · exact ⟨_, hsize, .inl ⟨code, e⟩⟩
  · exact ⟨_, hsize.trans ((clampFastWidth_keepsControl _).trans ((clampFastHeight_keepsControl _).trans
      (withOut_keepsControl _ _))), .inr (.inr e)⟩

/-- `begin_frame` ends in a Skip, in F1 or in a dispatch, of a state that has the control fields of the start. -/
theorem beginFrame_ends (s : State) : ∃ u, KeepsControl (startFrameStep s) u ∧ EndsBegin u (beginFrame s) := by
  have hcaptured := captured_keepsControl s
  rw [beginFrame_eq]
  split
  · obtain ⟨u, hu, hend⟩ := normalBegin_ends (captured s)
    exact ⟨u, hcaptured.trans hu, hend⟩
  · obtain ⟨u, hu, hend⟩ := fastBegin_ends (captured s)
    exact ⟨u, hcaptured.trans hu, hend⟩

/-- After `begin_frame` the block is in the render phase, or back in `IDLE`; the scan position stands at its start, and
the sink's interval is over. -/
theorem beginFrame_control (s : State) :
    ((beginFrame s).scan = ⟨.idle, 0, 0⟩ ∨ (beginFrame s).scan = ⟨.render, 0, 0⟩) ∧
      (beginFrame s).handedOver = false ∧
      ((beginFrame s).fatal = s.fatal ∨
        (beginFrame s).fatal = true ∧ (beginFrame s).result = some (.fatal .f1)) := by
  obtain ⟨u, hu, hend⟩ := beginFrame_ends s
  have hscan : u.scan = ⟨.begin, 0, 0⟩ := hu.scan
  have hover : u.handedOver = false := hu.handedOver
  have hfatal : u.fatal = s.fatal := hu.fatal
  rcases hend with ⟨code, e⟩ | e | e <;> simp [e, hscan, hover, hfatal]

/-- A frame that is dispatched has no fatal mark it did not have before. -/
theorem beginFrame_render {s : State} (h : (beginFrame s).scan.phase = .render) :
    (beginFrame s).fatal = s.fatal ∧ ∀ e ∈ (beginFrame s).workers, e.2.caches = {} := by
  obtain ⟨u, hu, hend⟩ := beginFrame_ends s
  have hfatal : u.fatal = s.fatal := hu.fatal
  rcases hend with ⟨code, e⟩ | e | e
  · rw [e] at h; cases h
  · rw [e] at h; cases h
  · rw [e]; exact ⟨by simp [hfatal], dispatch_caches⟩

/-! ### How a render and a frame step end -/

/-- The join leaves the present phase, F2 the phase `IDLE`. -/
theorem renderFrame_phase (s : State) :
    ((renderFrame s).scan.phase = .present ∧ (renderFrame s).fatal = s.fatal ∧ (renderFrame s).result = s.result ∧
        (renderFrame s).handedOver = s.handedOver) ∨
      ((renderFrame s).scan.phase = .idle ∧ (renderFrame s).fatal = true ∧
        (renderFrame s).result = some (.fatal .f2) ∧ (renderFrame s).handedOver = false) := by
  have hro := (runWorkers_rendersOnly s).1
  have hfatal : (runWorkers s).fatal = s.fatal := by rw [hro]; rfl
  have hresult : (runWorkers s).result = s.result := by rw [hro]; rfl
  have hover : (runWorkers s).handedOver = s.handedOver := by rw [hro]; rfl
  rcases renderFrame_cases s with ⟨-, e⟩ | ⟨-, -, e⟩ | ⟨-, -, e⟩ <;> simp [e, joinWorkers, hfatal, hresult, hover]

/-- A frame step is `begin_frame`, a render that a Fatal ends, or a render and its presentation. -/
theorem frameStep_cases (s : State) :
    ((beginFrame s).scan.phase ≠ .render ∧ frameStep s = beginFrame s) ∨
      ((beginFrame s).scan.phase = .render ∧ (renderFrame (beginFrame s)).scan.phase = .idle ∧
        frameStep s = renderFrame (beginFrame s)) ∨
      ((beginFrame s).scan.phase = .render ∧ (renderFrame (beginFrame s)).scan.phase = .present ∧
        frameStep s = presentFrame (renderFrame (beginFrame s))) := by
  unfold frameStep afterBegin
  by_cases hrender : (beginFrame s).scan.phase = .render
  · rcases renderFrame_phase (beginFrame s) with ⟨hphase, -⟩ | ⟨hphase, -⟩ <;> simp [hrender, hphase]
  · simp [hrender]

/-! ### The form of the state -/

@[simp] theorem withRequests_wf (s : State) (rs : List Request) : (s.withRequests rs).wf = s.wf := rfl
@[simp] theorem withSlots_wf (s : State) (r : Regs) : (s.withSlots r).wf = s.wf := rfl
@[simp] theorem withConfig_wf (s : State) (c : HostConfig) : (s.withConfig c).wf = s.wf := rfl
@[simp] theorem withScan_wf (s : State) (p : ScanPosition) : (s.withScan p).wf = s.wf := rfl
@[simp] theorem withPhase_wf (s : State) (p : Phase) : (s.withPhase p).wf = s.wf := rfl
@[simp] theorem withSampled_wf (s : State) (c : HostConfig) : (s.withSampled c).wf = s.wf := rfl
@[simp] theorem withFrame_wf (s : State) (C : FrameConfig) : (s.withFrame C).wf = s.wf := rfl
@[simp] theorem withLatch_wf (s : State) (l : PixelLatches) : (s.withLatch l).wf = s.wf := rfl
@[simp] theorem withHandedOver_wf (s : State) (b : Bool) : (s.withHandedOver b).wf = s.wf := rfl
@[simp] theorem warn_wf (s : State) (code : WarnCode) : (warn code s).wf = s.wf := rfl
@[simp] theorem skip_wf (s : State) (code : SkipCode) : (skip code s).wf = s.wf := rfl
@[simp] theorem raiseFatal_wf (s : State) (code : FatalCode) : (raiseFatal code s).wf = s.wf := rfl
@[simp] theorem warnDropped_wf (s : State) : (warnDropped s).wf = s.wf := rfl
@[simp] theorem startFrameStep_wf (s : State) : (startFrameStep s).wf = s.wf := rfl
@[simp] theorem presentFrame_wf (s : State) : (presentFrame s).wf = s.wf := rfl
@[simp] theorem sequenceInterlace_wf (s : State) : (sequenceInterlace s).wf = s.wf := rfl
@[simp] theorem applyScan_wf (serrate : Bool) (s : State) : (applyScan serrate s).wf = s.wf := rfl
@[simp] theorem placeFrame_wf (s : State) : (placeFrame s).wf = s.wf := by
  simp only [placeFrame, withFrame_wf, warnDropped_wf]

/-- An output buffer in its form keeps the form of the state. -/
theorem withOut_wf {s : State} (h : s.wf = true) {o : List (Nat × Word)} (ho : outWf s.params o = true) :
    (s.withOut o).wf = true := by
  obtain ⟨hmemory, -, hfade, hworkers⟩ := State.wf_iff.mp h
  exact State.wf_iff.mpr ⟨hmemory, ho, hfade, hworkers⟩

/-- A fade table in its form keeps the form of the state. -/
theorem withPipe_wf {s : State} (h : s.wf = true) {p : PipelineState} (hp : fadeWf s.params p.fade = true) :
    (s.withPipe p).wf = true := by
  obtain ⟨hmemory, hout, -, hworkers⟩ := State.wf_iff.mp h
  exact State.wf_iff.mpr ⟨hmemory, hout, hp, hworkers⟩

/-- Workers in their form keep the form of the state. -/
theorem withWorkers_wf {s : State} (h : s.wf = true) {ws : List (Nat × Worker)} (hws : workersWf s.params ws = true) :
    (s.withWorkers ws).wf = true := by
  obtain ⟨hmemory, hout, hfade, -⟩ := State.wf_iff.mp h
  exact State.wf_iff.mpr ⟨hmemory, hout, hfade, hws⟩

theorem captureAndDecode_wf (s : State) : (captureAndDecode s).wf = s.wf := by
  simp only [captureAndDecode, warnReserved]
  split <;> rfl

theorem latchMode_wf {s : State} (h : s.wf = true) (mode : DisplayMode) : (latchMode mode s).wf = true := by
  unfold latchMode
  split
  · exact h
  · exact withPipe_wf (withOut_wf h (outWf_nil _)) (fadeWf_nil _)

theorem captured_wf {s : State} (h : s.wf = true) : (captured s).wf = true :=
  latchMode_wf (by rw [captureAndDecode_wf]; exact h) _

theorem resolveGeometry_wf (s : State) : (resolveGeometry s).wf = s.wf := by
  have hheight (u : State) : (clampHeight u).wf = u.wf := by unfold clampHeight; split <;> rfl
  have hwidth (u : State) : (clampWidth u).wf = u.wf := by unfold clampWidth; split <;> rfl
  simp only [resolveGeometry, hheight, hwidth, withFrame_wf, sequenceInterlace_wf]

/-- A decayed counter is no greater than the counter. -/
theorem decayed_le {P : Params} {t : List (Nat × Nat)} (h : fadeWf P t = true) (row : Nat) :
    decayed t row ≤ P.fadeFrames :=
  (Nat.sub_le _ _).trans (readFade_le h row)

theorem fadeAfter_le {P : Params} {t : List (Nat × Nat)} (h : fadeWf P t = true) (C : FrameConfig) (tvFade : Bool)
    (row : Nat) : fadeAfter P C tvFade t row ≤ P.fadeFrames := by
  unfold fadeAfter
  split
  · exact le_rfl
  · split
    · exact decayed_le h row
    · split
      · exact readFade_le h row
      · exact Nat.zero_le _

theorem blankFrame_wf {s : State} (h : s.wf = true) : (blankFrame s).wf = true := by
  obtain ⟨-, hout, hfade, -⟩ := State.wf_iff.mp h
  unfold blankFrame
  split
  · exact withPipe_wf (withOut_wf h (outWf_clearOut hout _)) (fadeWf_fadeTable (decayed_le hfade))
  · exact withPipe_wf (withOut_wf h (outWf_nil _)) (fadeWf_nil _)

theorem activeFrame_wf {s : State} (h : s.wf = true) : (activeFrame s).wf = true := by
  obtain ⟨-, hout, hfade, -⟩ := State.wf_iff.mp h
  exact withPipe_wf (withOut_wf h (outWf_clearOut hout _)) (fadeWf_fadeTable (fadeAfter_le hfade _ _))

theorem dispatch_wf {s : State} (h : s.wf = true) : (dispatch s).wf = true := by
  obtain ⟨hmemory, hout, hfade, hworkers⟩ := State.wf_iff.mp h
  refine State.wf_iff.mpr ⟨?_, ?_, ?_, ?_⟩ <;> simp only [dispatch_params, dispatch_memory, dispatch_out, dispatch_pipe,
    dispatch_workers]
  · exact hmemory
  · exact hout
  · exact hfade
  · split
    · exact workersWf_invalidateCaches hworkers
    · rfl

theorem normalBegin_wf {s : State} (h : s.wf = true) : (normalBegin s).wf = true := by
  have hgeometry : (resolveGeometry s).wf = true := by rw [resolveGeometry_wf, h]
  have hplaced : (placeFrame (resolveGeometry s)).wf = true := by rw [placeFrame_wf, hgeometry]
  rcases normalBegin_cases s with ⟨-, e⟩ | ⟨-, -, e⟩ | ⟨-, -, e⟩ <;> rw [e]
  · exact hgeometry
  · exact hgeometry
  · rcases finishBegin_cases (placeFrame (resolveGeometry s)) with ⟨-, -, e⟩ | ⟨-, -, e⟩ | ⟨-, e⟩ <;> rw [e]
    · rw [skip_wf, hplaced]
    · exact dispatch_wf (blankFrame_wf hplaced)
    · exact dispatch_wf (activeFrame_wf hplaced)

theorem fastBegin_wf {s : State} (h : s.wf = true) : (fastBegin s).wf = true := by
  have hheight (u : State) : (clampFastHeight u).wf = u.wf := by unfold clampFastHeight; split <;> rfl
  have hwidth (u : State) : (clampFastWidth u).wf = u.wf := by unfold clampFastWidth; split <;> rfl
  rcases fastBegin_cases s with ⟨code, -, e⟩ | e <;> rw [e]
  · exact h
  · exact dispatch_wf (withOut_wf (by simpa [hheight, hwidth] using h) (outWf_nil _))

theorem beginFrame_wf {s : State} (h : s.wf = true) : (beginFrame s).wf = true := by
  rw [beginFrame_eq]
  split
  · exact normalBegin_wf (captured_wf h)
  · exact fastBegin_wf (captured_wf h)

theorem frameStep_wf {s : State} (h : s.wf = true) : (frameStep s).wf = true := by
  have hbegin := beginFrame_wf h
  rcases frameStep_cases s with ⟨-, e⟩ | ⟨-, -, e⟩ | ⟨-, -, e⟩ <;> rw [e]
  · exact hbegin
  · exact renderFrame_wf hbegin
  · rw [presentFrame_wf]
    exact renderFrame_wf hbegin

/-! ### The ranges of `C` -/

theorem frameLegal_iff {P : Params} {C : FrameConfig} :
    frameLegal P C = true ↔
      (C.origin < 2 ^ 24 ∧ C.base16 = C.origin / 2 ∧ C.base32 = C.origin / 4 ∧ C.w < 4096 ∧ C.vSync < 1024 ∧
        C.hsRaw ≤ P.hFieldMask.toNat ∧ C.heRaw ≤ P.hFieldMask.toNat ∧ C.vsRaw ≤ P.vFieldMask.toNat ∧
        C.veRaw ≤ P.vFieldMask.toNat ∧ C.xAdd < 4096 ∧ C.yAdd < 4096) ∧
      0 ≤ C.hStart ∧ 0 ≤ C.vStart ∧ 0 ≤ C.xStart ∧ 0 ≤ C.yStart := by
  simp only [frameLegal, Bool.and_eq_true, decide_eq_true_eq]
  tauto

theorem frameLegal_decodeRegs (P : Params) (r : Regs) : frameLegal P (decodeRegs P r) = true := by
  have hmask (v mask : Word) : (v &&& mask).toNat ≤ mask.toNat := by
    rw [BitVec.toNat_and]; exact Nat.and_le_right
  obtain ⟨hbase16, hbase32⟩ := decodeRegs_bases P r
  obtain ⟨hxAdd, hyAdd⟩ := decodeRegs_adds P r
  obtain ⟨hxStart, hyStart⟩ := decodeRegs_scaleStarts P r
  refine frameLegal_iff.mpr ⟨⟨?_, hbase16, hbase32, ?_, ?_, hmask _ _, hmask _ _, hmask _ _, hmask _ _, ?_, ?_⟩,
    le_rfl, le_rfl, ?_, ?_⟩
  · rw [decodeRegs_origin]; omega
  · rw [decodeRegs_w]; omega
  · rw [decodeRegs_vSync]; omega
  · omega
  · omega
  · omega
  · omega

/-- The geometry keeps the ranges: the starts are cut at 0, and what is cut off is added to the scale starts. -/
theorem frameLegal_withGeometry {P : Params} {C : FrameConfig} (h : frameLegal P C = true) (valid : Bool) :
    frameLegal P (C.withGeometry P valid) = true := by
  obtain ⟨hdecoded, -, -, hx, hy⟩ := frameLegal_iff.mp h
  refine frameLegal_iff.mpr ⟨hdecoded, le_max_right _ _, le_max_right _ _, ?_, ?_⟩
  · exact add_nonneg hx (mul_nonneg (Int.natCast_nonneg _) (le_max_right _ _))
  · exact add_nonneg hy (mul_nonneg (Int.natCast_nonneg _) (le_max_right _ _))

/-- The fast size is cut at the raster (R382). -/
theorem clampFast_frame (s : State) :
    (clampFastHeight (clampFastWidth s)).frame =
      { s.frame with
        hresRaw := min s.frame.hresRaw s.params.maxW
        vresRaw := min s.frame.vresRaw s.params.maxH } := by
  have hwidth : (clampFastWidth s).frame = { s.frame with hresRaw := min s.frame.hresRaw s.params.maxW } := by
    unfold clampFastWidth
    split
    next hwide => rw [min_eq_right (by omega)]; rfl
    next hfits => rw [min_eq_left (by omega)]
  have hparams := (clampFastWidth_keeps s).params
  have hheight (u : State) :
      (clampFastHeight u).frame = { u.frame with vresRaw := min u.frame.vresRaw u.params.maxH } := by
    unfold clampFastHeight
    split
    next htall => rw [min_eq_right (by omega)]; rfl
    next hfits => rw [min_eq_left (by omega)]
  rw [hheight, hwidth, hparams]

/-- A fast `begin_frame` sets the fast size and no other field of the configuration. -/
theorem fastBegin_frame (s : State) :
    (fastBegin s).frame = { s.frame with hresRaw := (fastBegin s).frame.hresRaw, vresRaw := (fastBegin s).frame.vresRaw } := by
  rcases fastBegin_cases s with ⟨code, -, e⟩ | e <;> rw [e]
  · rfl
  · rw [dispatch_frame, State.withOut_frame, clampFast_frame]; rfl

/-- The ranges are not about the fast size. -/
theorem frameLegal_withFastSize (P : Params) (C : FrameConfig) (width height : Int) :
    frameLegal P { C with hresRaw := width, vresRaw := height } = frameLegal P C := rfl

/-- The ranges are not about the fields that are placed. -/
theorem frameLegal_withPlaced (P : Params) (C R : FrameConfig) :
    frameLegal P (C.withPlaced R) = frameLegal P C := rfl

theorem frameLegal_beginFrame (s : State) : frameLegal s.params (beginFrame s).frame = true := by
  by_cases hnormal : s.config.displayMode = .normal
  · rw [beginFrame_frame_of_normal hnormal, frameLegal_withPlaced]
    exact frameLegal_withGeometry (frameLegal_decodeRegs _ _) _
  · obtain ⟨-, -, hdecode, -⟩ := captured_samples s
    rw [beginFrame_eq, if_neg hnormal, fastBegin_frame, frameLegal_withFastSize, hdecode]
    exact frameLegal_decodeRegs s.params s.slots

/-! ### The configuration after the placing -/

/-- The fields that are placed, each from the geometry (R199 to R203). -/
theorem placeFrame_frame (s : State) :
    (placeFrame s).frame = { s.frame with
      vactive := if s.frame.serrate then activeCount s.params s.frame else activeCount s.params s.frame / 2
      validh := decide (0 < s.frame.hres) && decide (0 < s.frame.vres) && decide (s.frame.hStart < s.params.maxW)
      field := s.frame.serrate && s.pipe.lowerField
      marginLo := if s.frame.hStartClamped then 0 else s.params.hblankMarginL
      marginHi := if s.frame.hresClamped then s.frame.hres else s.frame.hres - s.params.hblankMarginR } := by
  simp only [placeFrame, warnDropped, State.withFrame_frame, State.withFrame_params, warnTimes_frame, warnTimes_params,
    resolveMargins, resolveField, resolveValid, resolveActive, shiftRight_one_eq_div_two]

theorem finishBegin_frame (s : State) : (finishBegin s).frame = s.frame := by
  have hblank : (blankFrame s).frame = s.frame := by unfold blankFrame; split <;> rfl
  rcases finishBegin_cases s with ⟨-, -, e⟩ | ⟨-, -, e⟩ | ⟨-, e⟩ <;> rw [e]
  · rfl
  · rw [dispatch_frame, hblank]
  · rw [dispatch_frame]; rfl

/-- After a normal `begin_frame` from a configuration with no active lines, they lie in their range. -/
theorem normalBegin_vactive {s : State} (h : s.frame.vactive = 0) :
    0 ≤ (normalBegin s).frame.vactive ∧ (normalBegin s).frame.vactive ≤ s.params.maxH := by
  have hgeometry : (resolveGeometry s).frame.vactive = 0 := by rw [resolveGeometry_frame]; exact h
  have hparams := (resolveGeometry_keeps s).params
  rcases normalBegin_cases s with ⟨-, e⟩ | ⟨-, -, e⟩ | ⟨hle, h0, e⟩ <;> rw [e]
  · simp [hgeometry]
  · simp [hgeometry]
  · rw [finishBegin_frame, placeFrame_frame, hparams]
    simp only
    split <;> omega

/-- After `begin_frame` the active lines lie in their range. -/
theorem beginFrame_vactive (s : State) :
    0 ≤ (beginFrame s).frame.vactive ∧ (beginFrame s).frame.vactive ≤ s.params.maxH := by
  obtain ⟨-, -, hdecode, -⟩ := captured_samples s
  have hzero : (captured s).frame.vactive = 0 := by rw [hdecode]; rfl
  rw [beginFrame_eq, ← (captured_keeps s).params]
  split
  · exact normalBegin_vactive hzero
  · rw [fastBegin_frame]; simp [hzero]

/-! ### `S` -/

theorem fastBegin_pipe (s : State) : (fastBegin s).pipe = s.pipe := by
  have hheight (u : State) : (clampFastHeight u).pipe = u.pipe := by unfold clampFastHeight; split <;> rfl
  have hwidth (u : State) : (clampFastWidth u).pipe = u.pipe := by unfold clampFastWidth; split <;> rfl
  rcases fastBegin_cases s with ⟨code, -, e⟩ | e <;> rw [e]
  · rfl
  · rw [dispatch_pipe, State.withOut_pipe, hheight, hwidth, State.withFrame_pipe]

/-- `S` after `begin_frame`, but for the mode, the blank mark and the fades: sequenced or as before. -/
theorem beginFrame_pipe_cases (s : State) :
    (∃ valid C q, frameLegal s.params C = true ∧
      (beginFrame s).pipe = (sequenceFields valid C s.pipe).withBlanking q) ∨
    ∃ q, (beginFrame s).pipe = s.pipe.withBlanking q := by
  by_cases hnormal : s.config.displayMode = .normal
  · exact .inl ⟨_, _, _, frameLegal_decodeRegs s.params s.slots, beginFrame_pipe_of_normal hnormal⟩
  · refine .inr ⟨(captured s).pipe, ?_⟩
    rw [beginFrame_eq, if_neg hnormal, fastBegin_pipe]
    exact captured_pipe s

/-! ### The log -/

theorem captured_log (s : State) :
    (captured s).log = s.log ++ if (decodeRegs s.params s.slots).fmt = .reserved then [.w1] else [] := by
  have hlatch (mode : DisplayMode) (u : State) : (latchMode mode u).log = u.log := by unfold latchMode; split <;> rfl
  have hdecode : (captureAndDecode (startFrameStep s)).log =
      s.log ++ if (decodeRegs s.params s.slots).fmt = .reserved then [.w1] else [] := by
    change (warnReserved (((startFrameStep s).withReg s.slots).withFrame (decodeRegs s.params s.slots))).log = _
    rw [warnReserved, State.withFrame_frame, apply_ite State.log]
    split
    next => rfl
    next => exact (List.append_nil _).symm
  rw [captured, hlatch, hdecode]

theorem clampWidth_log (s : State) :
    (clampWidth s).log = s.log ++ if (clampWidth s).frame.hresClamped then [.w2] else [] := by
  unfold clampWidth
  split <;> simp

theorem clampHeight_log (s : State) :
    (clampHeight s).log =
      s.log ++ if (s.params.maxH : Int) < s.frame.vStart + s.frame.vres then [.w3] else [] := by
  unfold clampHeight
  split
  next => simp
  next => simp

/-- The geometry warns of a width cut and of a height cut, in this order (R195, R196). -/
theorem resolveGeometry_log (s : State) :
    (resolveGeometry s).log = s.log ++ (if (resolveGeometry s).frame.hresClamped then [.w2] else []) ++
      (if (s.params.maxH : Int) < (resolveGeometry s).frame.vStart + ((s.frame.veRaw : Int) - s.frame.vsRaw) / 2
        then [.w3] else []) := by
  simp only [resolveGeometry, clampHeight_log, clampWidth_log, clampHeight_frame, clampWidth_frame, clampWidth_params,
    State.withFrame_frame, State.withFrame_params, sequenceInterlace_frame, sequenceInterlace_params,
    resolveVerticalStart_eq, clampHorizontalStart_eq, resolveSize, resolveStandard, shiftRight_one_eq_div_two]
  rfl

/-- The dropped scanlines do not depend on the margins. -/
theorem droppedCount_resolveMargins (P Q : Params) (C : FrameConfig) :
    droppedCount P (resolveMargins Q C) = droppedCount P C := rfl

theorem placeFrame_log (s : State) :
    (placeFrame s).log = s.log ++ List.replicate (droppedCount s.params (placeFrame s).frame) .w4 := by
  simp only [placeFrame, warnDropped, State.withFrame_log, State.withFrame_frame, State.withFrame_params, warnTimes_log,
    warnTimes_frame, warnTimes_params, droppedCount_resolveMargins]

theorem finishBegin_log (s : State) : (finishBegin s).log = s.log := by
  have hblank : (blankFrame s).log = s.log := by unfold blankFrame; split <;> rfl
  rcases finishBegin_cases s with ⟨-, -, e⟩ | ⟨-, -, e⟩ | ⟨-, e⟩ <;> rw [e]
  · rfl
  · rw [dispatch_log, hblank]
  · rw [dispatch_log]; rfl

/-- A fast size that is cut is warned of, the width first (R382). -/
theorem clampFast_log (s : State) :
    (clampFastHeight (clampFastWidth s)).log = s.log ++
      (if (s.params.maxW : Int) < s.frame.hresRaw then [.w5] else []) ++
      (if (s.params.maxH : Int) < s.frame.vresRaw then [.w5] else []) := by
  unfold clampFastHeight clampFastWidth
  by_cases hwide : s.frame.hresRaw > s.params.maxW <;> by_cases htall : s.frame.vresRaw > s.params.maxH <;>
    simp [hwide, htall]

/-- The log only grows along the normal path. -/
theorem normalBegin_log_prefix (s : State) : s.log <+: (normalBegin s).log := by
  have hgeometry : s.log <+: (resolveGeometry s).log := by
    rw [resolveGeometry_log, List.append_assoc]; exact List.prefix_append _ _
  rcases normalBegin_cases s with ⟨-, e⟩ | ⟨-, -, e⟩ | ⟨-, -, e⟩ <;> rw [e]
  · exact hgeometry
  · exact hgeometry
  · rw [finishBegin_log, placeFrame_log]
    exact hgeometry.trans (List.prefix_append _ _)

/-- The log only grows along the fast path. -/
theorem fastBegin_log_prefix (s : State) : s.log <+: (fastBegin s).log := by
  rcases fastBegin_cases s with ⟨code, -, e⟩ | e <;> rw [e]
  · exact List.prefix_rfl
  · rw [dispatch_log, State.withOut_log, clampFast_log, List.append_assoc]
    exact List.prefix_append _ _

/-- The log only grows in `begin_frame`. -/
theorem beginFrame_log_prefix (s : State) : s.log <+: (beginFrame s).log := by
  have hcaptured : s.log <+: (captured s).log := by rw [captured_log]; exact List.prefix_append _ _
  rw [beginFrame_eq]
  split
  · exact hcaptured.trans (normalBegin_log_prefix _)
  · exact hcaptured.trans (fastBegin_log_prefix _)

end Sys2Proof.Machine
end

section
/-! PROOFS. The invariants of the machine: each is kept by a host store, by every kind of operation and so by every step. -/

namespace Sys2Proof.Machine

/-! ### What the kinds of operation keep -/

section
variable {s t : State} {i : Instr}

theorem PixelOnly.params (h : PixelOnly s t) : t.params = s.params := by rw [h]; rfl
theorem PixelOnly.requests (h : PixelOnly s t) : t.requests = s.requests := by rw [h]; rfl
theorem PixelOnly.slots (h : PixelOnly s t) : t.slots = s.slots := by rw [h]; rfl
theorem PixelOnly.config (h : PixelOnly s t) : t.config = s.config := by rw [h]; rfl
theorem PixelOnly.workerFailures (h : PixelOnly s t) : t.workerFailures = s.workerFailures := by rw [h]; rfl
theorem PixelOnly.memory (h : PixelOnly s t) : t.memory = s.memory := by rw [h]; rfl
theorem PixelOnly.sampled (h : PixelOnly s t) : t.sampled = s.sampled := by rw [h]; rfl
theorem PixelOnly.reg (h : PixelOnly s t) : t.reg = s.reg := by rw [h]; rfl
theorem PixelOnly.frame (h : PixelOnly s t) : t.frame = s.frame := by rw [h]; rfl
theorem PixelOnly.pipe (h : PixelOnly s t) : t.pipe = s.pipe := by rw [h]; rfl
theorem PixelOnly.log (h : PixelOnly s t) : t.log = s.log := by rw [h]; rfl
theorem PixelOnly.fatal (h : PixelOnly s t) : t.fatal = s.fatal := by rw [h]; rfl
theorem PixelOnly.presented (h : PixelOnly s t) : t.presented = s.presented := by rw [h]; rfl
theorem PixelOnly.handedOver (h : PixelOnly s t) : t.handedOver = s.handedOver := by rw [h]; rfl
theorem PixelOnly.draws (h : PixelOnly s t) : t.draws = s.draws := by rw [h]; rfl

/-- A render leaves every field but the buffer, the workers, the position and the outcome. -/
theorem renderFrame_only (s : State) :
    renderFrame s = { s with
      out := (renderFrame s).out, workers := (renderFrame s).workers, scan := (renderFrame s).scan
      fatal := (renderFrame s).fatal, result := (renderFrame s).result, handedOver := (renderFrame s).handedOver } := by
  have hro := (runWorkers_rendersOnly s).1
  rcases renderFrame_cases s with ⟨-, e⟩ | ⟨-, -, e⟩ | ⟨-, -, e⟩ <;> rw [e]
  · rfl
  · generalize runWorkers s = u at hro ⊢
    rw [hro]; rfl
  · generalize runWorkers s = u at hro ⊢
    rw [hro]; rfl

/-- After its `begin_frame` a frame step leaves every field but those of a render, and the descriptor. -/
theorem frameStep_only (s : State) :
    frameStep s = { beginFrame s with
      out := (frameStep s).out, workers := (frameStep s).workers, scan := (frameStep s).scan
      fatal := (frameStep s).fatal, result := (frameStep s).result, handedOver := (frameStep s).handedOver
      presented := (frameStep s).presented } := by
  rcases frameStep_cases s with ⟨-, e⟩ | ⟨-, -, e⟩ | ⟨-, -, e⟩ <;> rw [e]
  · have honly := renderFrame_only (beginFrame s)
    generalize renderFrame (beginFrame s) = r at honly ⊢
    generalize beginFrame s = b at honly ⊢
    rw [honly]
  · have honly := renderFrame_only (beginFrame s)
    generalize renderFrame (beginFrame s) = r at honly ⊢
    generalize beginFrame s = b at honly ⊢
    rw [honly]; rfl

/-- What the scan bit sets: the sequenced `S`, and four fields of `C` (R221, R222). -/
theorem applyScan_eq (serrate : Bool) (s : State) :
    applyScan serrate s =
      (s.withFrame { s.frame with
        serrate := serrate
        validInterlace := s.reg.status.getLsbD 1 && serrate
        field := serrate && (sequenceFields (s.reg.status.getLsbD 1 && serrate) s.frame s.pipe).lowerField
        vactive := if serrate then activeCount s.params s.frame else activeCount s.params s.frame / 2 }).withPipe
      (sequenceFields (s.reg.status.getLsbD 1 && serrate) s.frame s.pipe) := by
  simp only [applyScan, sequenceInterlace, resolveField, resolveActive, shiftRight_one_eq_div_two]
  rfl

theorem applyScan_keepsControl (serrate : Bool) (s : State) : KeepsControl s (applyScan serrate s) := by
  rw [applyScan_eq]; exact ⟨rfl, rfl, rfl, rfl, rfl, rfl, rfl, rfl, rfl⟩

theorem applyScan_keeps (serrate : Bool) (s : State) :
    KeepsInputs s (applyScan serrate s) ∧ (applyScan serrate s).reg = s.reg ∧
      (applyScan serrate s).draws = s.draws := by
  rw [applyScan_eq]; exact ⟨⟨rfl, rfl, rfl, rfl, rfl, rfl, rfl, rfl⟩, rfl, rfl⟩

theorem warnDropped_keeps (s : State) : KeepsInputs s (warnDropped s) := ⟨rfl, rfl, rfl, rfl, rfl, rfl, rfl, rfl⟩

/-- A part of `begin_frame` keeps the inputs, the snapshot, the source of draws and the fatal mark. -/
theorem SetsUp.keeps (h : SetsUp s i t) :
    KeepsInputs s t ∧ t.reg = s.reg ∧ t.draws = s.draws ∧ t.fatal = s.fatal := by
  cases h with
  | blankSkip h => exact ⟨⟨rfl, rfl, rfl, rfl, rfl, rfl, rfl, rfl⟩, rfl, rfl, rfl⟩
  | blank h =>
    unfold blankFrame
    split <;> exact ⟨⟨rfl, rfl, rfl, rfl, rfl, rfl, rfl, rfl⟩, rfl, rfl, rfl⟩
  | reserved => exact ⟨⟨rfl, rfl, rfl, rfl, rfl, rfl, rfl, rfl⟩, rfl, rfl, rfl⟩
  | aaMode i m hi => exact ⟨⟨rfl, rfl, rfl, rfl, rfl, rfl, rfl, rfl⟩, rfl, rfl, rfl⟩
  | progressive =>
    obtain ⟨hinputs, hreg, hdraws⟩ := applyScan_keeps false s
    exact ⟨hinputs, hreg, hdraws, (applyScan_keepsControl false s).fatal⟩
  | interlaced =>
    obtain ⟨hinputs, hreg, hdraws⟩ := applyScan_keeps true s
    exact ⟨hinputs.trans (warnDropped_keeps _), hreg, hdraws, (applyScan_keepsControl true s).fatal⟩
  | modeNormal =>
    unfold latchMode
    split <;> exact ⟨⟨rfl, rfl, rfl, rfl, rfl, rfl, rfl, rfl⟩, rfl, rfl, rfl⟩

end

/-! ### The form of the state -/

theorem gammaDitherStage_wf {s : State} (h : s.wf = true) (mode : GdMode) : (gammaDitherStage mode s).wf = true := by
  obtain ⟨-, -, -, hworkers⟩ := State.wf_iff.mp h
  rcases gammaDitherStage_cases mode s with ⟨-, e⟩ | ⟨-, e⟩ <;> rw [e]
  · exact h
  · exact withWorkers_wf h (workersWf_putWorker hworkers _ _)

theorem latchedPixel_lt (l : PixelLatches) : (latchedPixel l).toNat < 2 ^ 24 := by
  unfold latchedPixel
  split
  · decide
  · exact pack_lt _

theorem storePixel_wf {s : State} (h : s.wf = true) : (storePixel s).wf = true := by
  obtain ⟨-, hout, -, -⟩ := State.wf_iff.mp h
  rcases storePixel_cases s with ⟨-, e⟩ | ⟨-, e⟩ <;> rw [e]
  · exact withOut_wf h (outWf_writeOut hout _ _ (latchedPixel_lt _))
  · exact h

theorem fastPixel_wf {s : State} (h : s.wf = true) (y x : Nat) (c : Colour) : (fastPixel y x c s).wf = true := by
  obtain ⟨-, hout, -, hworkers⟩ := State.wf_iff.mp h
  cases hin : insideFrame s y x
  · rw [fastPixel_outside c hin]; exact h
  · rw [fastPixel_inside c hin, withScan_wf]
    exact withWorkers_wf (withOut_wf h (outWf_writeOut hout _ _ (pack_lt _))) (workersWf_putWorker hworkers _ _)

theorem DrawsPixel.wf {s t : State} {i : Instr} (h : DrawsPixel s i t) (hwf : s.wf = true) : t.wf = true := by
  cases h with
  | latched i l hi hmode => exact hwf
  | dithered i mode hi => exact gammaDitherStage_wf hwf mode
  | clip n =>
    rcases moveToPixel_cases n s with ⟨-, e⟩ | ⟨-, e⟩ <;> rw [startPixel, e, withLatch_wf]
    · exact hwf
    · exact hwf
  | fetchState y =>
    rcases moveToScanline_cases y s with ⟨-, e⟩ | ⟨-, e⟩ <;> rw [startScanline, e, withLatch_wf]
    · exact hwf
    · exact hwf
  | pixelWrite hphase => exact storePixel_wf hwf
  | fastPixel i y x c hi hphase => exact fastPixel_wf hwf y x c
  | scanline y hy hphase => exact renderScanline_wf hwf y
  | noScanline y hy hphase => exact hwf

theorem SetsUp.wf {s t : State} {i : Instr} (h : SetsUp s i t) (hwf : s.wf = true) : t.wf = true := by
  cases h with
  | blankSkip h => exact hwf
  | blank h => exact blankFrame_wf hwf
  | reserved => exact hwf
  | aaMode i m hi => exact hwf
  | progressive => rw [applyScan_wf, hwf]
  | interlaced => rw [warnDropped_wf, applyScan_wf, hwf]
  | modeNormal => exact latchMode_wf (by rw [withSampled_wf, withHandedOver_wf, hwf]) _

theorem Runs.wf {s t : State} {i : Instr} (h : Runs s i t) (hwf : s.wf = true) : t.wf = true := by
  cases h with
  | wreg n v => exact hwf
  | cfg c => exact hwf
  | pixel hfatal h => exact h.wf hwf
  | setup hfatal hrender hpresent h => exact h.wf hwf
  | render hfatal hphase => exact renderFrame_wf hwf
  | present hfatal hphase => exact hwf
  | beginFrame hfatal hphase => exact beginFrame_wf hwf
  | frameStep hfatal hphase => exact frameStep_wf hwf

/-- Settles O49: a host store keeps the form of memory, and every kind of operation the form of what it writes. -/
theorem stepKeepsTheFormOfTheState : Obligations.StepKeepsTheFormOfTheState := by
  intro s t hwf h
  refine step_relates (fun s t => s.wf = true → t.wf = true) (fun s h => h) ?store ?runs h hwf
  case store =>
    intro s rest st m _ hm hwf
    obtain ⟨hmemory, hout, hfade, hworkers⟩ := State.wf_iff.mp hwf
    exact State.wf_iff.mpr ⟨Memory.wf_storedMemory hmemory hm, hout, hfade, hworkers⟩
  case runs => exact fun s rest i t hrun hwf => hrun.wf hwf

/-! ### The coherence of the caches -/

/-- The caches are coherent when, in the render phase of a block that is not stuck and promotes no stale cache, the
workers hold only fresh values. -/
theorem cachesCoherent_iff {s : State} :
    s.cachesCoherent = true ↔
      (s.scan.phase = .render → s.fatal = false → s.params.cachePromoteStale = false → WorkersHold s) := by
  simp only [State.cachesCoherent, WorkersHold, Bool.or_eq_true, Bool.not_eq_true', decide_eq_false_iff_not,
    List.all_eq_true]
  cases s.fatal <;> cases s.params.cachePromoteStale <;> by_cases h : s.scan.phase = .render <;> simp [h]

/-- Outside the render phase the caches are coherent. -/
theorem cachesCoherent_of_phase {s : State} (h : s.scan.phase ≠ .render) : s.cachesCoherent = true :=
  cachesCoherent_iff.mpr fun hrender => absurd hrender h

/-- Workers of which one has another seed hold only fresh values when they did. -/
theorem workersHold_putSeed {s t : State} (h : WorkersHold s) (hp : PixelOnly s t) (k : Nat) (seed : Word)
    (hws : t.workers = putWorker s.params k { getWorker s.params s.workers k with seed := seed } s.workers) :
    WorkersHold t := by
  intro e he
  rw [hp.params, hp.memory, hp.frame]
  rw [hws] at he
  rcases mem_putWorker _ _ e he with hm | hv
  · exact h e hm
  · rw [hv]; exact h.getWorker k

theorem DrawsPixel.workersHold {s t : State} {i : Instr} (h : DrawsPixel s i t)
    (hs : s.params.cachePromoteStale = false) (hold : WorkersHold s) : WorkersHold t := by
  have hp := h.pixelOnly
  cases h with
  | latched i l hi hmode => exact hold
  | dithered i mode hi =>
    rcases gammaDitherStage_cases mode s with ⟨-, e⟩ | ⟨-, e⟩
    · rw [e]; exact hold
    · exact workersHold_putSeed hold hp _ _ (by rw [e]; rfl)
  | clip n =>
    rcases moveToPixel_cases n s with ⟨-, e⟩ | ⟨-, e⟩ <;> rw [startPixel, e]
    · exact hold
    · exact hold
  | fetchState y =>
    rcases moveToScanline_cases y s with ⟨-, e⟩ | ⟨-, e⟩ <;> rw [startScanline, e]
    · exact hold
    · exact hold
  | pixelWrite hphase =>
    rcases storePixel_cases s with ⟨-, e⟩ | ⟨-, e⟩ <;> rw [e]
    · exact hold
    · exact hold
  | fastPixel i y x c hi hphase =>
    cases hin : insideFrame s y x
    · rw [fastPixel_outside c hin]; exact hold
    · exact workersHold_putSeed hold hp _ _ (by rw [fastPixel_inside c hin]; rfl)
  | scanline y hy hphase => exact renderScanline_workersHold hold hs y
  | noScanline y hy hphase => exact hold

theorem gammaDitherStage_phase (mode : GdMode) (s : State) : (gammaDitherStage mode s).scan = s.scan := by
  rcases gammaDitherStage_cases mode s with ⟨-, e⟩ | ⟨-, e⟩ <;> rw [e]; rfl

/-- A stage of the pixel pipeline, or a scanline, stays in its phase. -/
theorem DrawsPixel.phase {s t : State} {i : Instr} (h : DrawsPixel s i t) : t.scan.phase = s.scan.phase := by
  cases h with
  | latched i l hi hmode => rfl
  | dithered i mode hi => rw [gammaDitherStage_phase]
  | clip n => rcases moveToPixel_cases n s with ⟨-, e⟩ | ⟨-, e⟩ <;> rw [startPixel, e] <;> rfl
  | fetchState y => rcases moveToScanline_cases y s with ⟨-, e⟩ | ⟨-, e⟩ <;> rw [startScanline, e] <;> rfl
  | pixelWrite hphase => rcases storePixel_cases s with ⟨-, e⟩ | ⟨-, e⟩ <;> rw [e]; rfl
  | fastPixel i y x c hi hphase => rcases fastPixel_cases y x c s with ⟨-, e⟩ | ⟨-, e⟩ <;> rw [e]; rfl
  | scanline y hy hphase => rfl
  | noScanline y hy hphase => rfl

/-- A part of `begin_frame` stays in its phase or leaves the phase `IDLE`, and hands nothing over. -/
theorem SetsUp.control {s t : State} {i : Instr} (h : SetsUp s i t) :
    (t.scan.phase = s.scan.phase ∨ t.scan.phase = .idle) ∧
      (t.handedOver = false ∨ t.handedOver = s.handedOver ∧ t.scan = s.scan) := by
  cases h with
  | blankSkip h => exact ⟨.inr rfl, .inl rfl⟩
  | blank h =>
    have hk := blankFrame_keepsControl (s.withHandedOver false)
    exact ⟨.inl (congrArg ScanPosition.phase hk.scan), .inl hk.handedOver⟩
  | reserved => exact ⟨.inl rfl, .inr ⟨rfl, rfl⟩⟩
  | aaMode i m hi => exact ⟨.inl rfl, .inr ⟨rfl, rfl⟩⟩
  | progressive =>
    have hk := applyScan_keepsControl false s
    exact ⟨.inl (congrArg ScanPosition.phase hk.scan), .inr ⟨hk.handedOver, hk.scan⟩⟩
  | interlaced =>
    have hk := (applyScan_keepsControl true s).trans (warnDropped_keepsControl _)
    exact ⟨.inl (congrArg ScanPosition.phase hk.scan), .inr ⟨hk.handedOver, hk.scan⟩⟩
  | modeNormal =>
    have hk := latchMode_keepsControl .normal
      ((s.withHandedOver false).withSampled { s.sampled with displayMode := .normal })
    exact ⟨.inl (congrArg ScanPosition.phase hk.scan), .inl hk.handedOver⟩

/-- A frame step ends in the phase `IDLE`, at the start of the scan or where F2 was raised. -/
theorem frameStep_phase (s : State) : (frameStep s).scan.phase = .idle := by
  rcases frameStep_cases s with ⟨hphase, e⟩ | ⟨-, hphase, e⟩ | ⟨-, -, e⟩ <;> rw [e]
  · rcases (beginFrame_control s).1 with hscan | hscan
    · rw [hscan]
    · exact absurd (by rw [hscan]) hphase
  · exact hphase
  · rfl

theorem beginFrame_coherent (s : State) : (beginFrame s).cachesCoherent = true := by
  refine cachesCoherent_iff.mpr fun hphase _ _ e he => ?_
  rw [(beginFrame_render hphase).2 e he, workerHolds_empty]

theorem Runs.coherent {s t : State} {i : Instr} (h : Runs s i t) (hc : s.cachesCoherent = true) :
    t.cachesCoherent = true := by
  cases h with
  | wreg n v => exact hc
  | cfg c => exact hc
  | pixel hfatal h =>
    refine cachesCoherent_iff.mpr fun hphase _ hs => ?_
    rw [h.phase] at hphase
    rw [h.pixelOnly.params] at hs
    exact h.workersHold hs (cachesCoherent_iff.mp hc hphase hfatal hs)
  | setup hfatal hrender hpresent h =>
    refine cachesCoherent_of_phase ?_
    rcases h.control.1 with e | e <;> rw [e]
    · exact hrender
    · decide
  | render hfatal hphase =>
    refine cachesCoherent_of_phase ?_
    rcases renderFrame_phase s with ⟨e, -⟩ | ⟨e, -⟩ <;> rw [e] <;> decide
  | present hfatal hphase => exact cachesCoherent_of_phase (show Phase.idle ≠ .render by decide)
  | beginFrame hfatal hphase => exact beginFrame_coherent s
  | frameStep hfatal hphase => exact cachesCoherent_of_phase (by rw [frameStep_phase]; decide)

/-- Settles O50: a host store lands outside the render phase or in a stuck block only, and in the render phase every
worker goes on holding only fresh values. -/
theorem stepKeepsTheCachesCoherent : Obligations.StepKeepsTheCachesCoherent := by
  intro s t hc h
  refine step_relates (fun s t => s.cachesCoherent = true → t.cachesCoherent = true) (fun s h => h) ?store ?runs h hc
  case store =>
    intro s rest st m hallowed _ _
    refine cachesCoherent_iff.mpr fun hphase hfatal _ => ?_
    have hrender : s.scan.phase = .render := hphase
    have hclear : s.fatal = false := hfatal
    simp [storeAllowed, hrender, hclear] at hallowed
  case runs => exact fun s rest i t hrun hc => hrun.coherent hc

end Sys2Proof.Machine
end

section
/-! PROOFS. Ranges, marks, ownership and the log over every step, and what a reset leaves. -/

namespace Sys2Proof.Machine

/-! ### What a render and a frame step keep -/

theorem renderFrame_keeps (s : State) : KeepsInputs s (renderFrame s) := by
  rw [renderFrame_only]; exact ⟨rfl, rfl, rfl, rfl, rfl, rfl, rfl, rfl⟩

/-- The snapshot, the source of draws, `C`, `S` and the log are the same in `t` as in `s`. -/
structure KeepsSettings (s t : State) : Prop where
  reg : t.reg = s.reg
  draws : t.draws = s.draws
  frame : t.frame = s.frame
  pipe : t.pipe = s.pipe
  log : t.log = s.log

theorem PixelOnly.settings {s t : State} (h : PixelOnly s t) : KeepsSettings s t :=
  ⟨h.reg, h.draws, h.frame, h.pipe, h.log⟩

theorem renderFrame_settings (s : State) : KeepsSettings s (renderFrame s) := by
  rw [renderFrame_only]; exact ⟨rfl, rfl, rfl, rfl, rfl⟩

theorem frameStep_settings (s : State) : KeepsSettings (beginFrame s) (frameStep s) := by
  rw [frameStep_only]; exact ⟨rfl, rfl, rfl, rfl, rfl⟩

/-- The inputs, all but the descriptor, are the same in `t` as in `s`. -/
structure KeepsHost (s t : State) : Prop where
  params : t.params = s.params
  requests : t.requests = s.requests
  workerFailures : t.workerFailures = s.workerFailures
  memory : t.memory = s.memory

theorem KeepsInputs.host {s t : State} (h : KeepsInputs s t) : KeepsHost s t :=
  ⟨h.params, h.requests, h.workerFailures, h.memory⟩

theorem frameStep_keeps (s : State) :
    KeepsHost s (frameStep s) ∧ (frameStep s).slots = s.slots ∧ (frameStep s).config = s.config ∧
      (frameStep s).latch = s.latch := by
  have hbegin := beginFrame_keeps s
  rw [frameStep_only]
  exact ⟨⟨hbegin.params, hbegin.requests, hbegin.workerFailures, hbegin.memory⟩, hbegin.slots, hbegin.config,
    hbegin.latch⟩

/-! ### Who writes what -/

section
variable {s t : State} {i : Instr}

theorem Runs.host (h : Runs s i t) : KeepsHost s t := by
  cases h with
  | wreg n v => exact ⟨rfl, rfl, rfl, rfl⟩
  | cfg c => exact ⟨rfl, rfl, rfl, rfl⟩
  | pixel hfatal h =>
    have hp := h.pixelOnly
    exact ⟨hp.params, hp.requests, hp.workerFailures, hp.memory⟩
  | setup hfatal hrender hpresent h => exact h.keeps.1.host
  | render hfatal hphase => exact (renderFrame_keeps s).host
  | present hfatal hphase => exact ⟨rfl, rfl, rfl, rfl⟩
  | beginFrame hfatal hphase => exact (beginFrame_keeps s).host
  | frameStep hfatal hphase => exact (frameStep_keeps s).1

/-- Outside a frame step and a `begin_frame`, the snapshot and the source of draws are kept. -/
theorem Runs.reg_draws (h : Runs s i t) (hstep : i ≠ .frameStep) (hbegin : i ≠ .beginFrame) :
    t.reg = s.reg ∧ t.draws = s.draws := by
  cases h with
  | wreg n v => exact ⟨rfl, rfl⟩
  | cfg c => exact ⟨rfl, rfl⟩
  | pixel hfatal h => exact ⟨h.pixelOnly.reg, h.pixelOnly.draws⟩
  | setup hfatal hrender hpresent h =>
    obtain ⟨-, hreg, hdraws, -⟩ := h.keeps
    exact ⟨hreg, hdraws⟩
  | render hfatal hphase => exact ⟨(renderFrame_settings s).reg, (renderFrame_settings s).draws⟩
  | present hfatal hphase => exact ⟨rfl, rfl⟩
  | beginFrame hfatal hphase => exact absurd rfl hbegin
  | frameStep hfatal hphase => exact absurd rfl hstep

/-- Outside a frame step and a `PRESENT`, the descriptor is kept. -/
theorem Runs.presented (h : Runs s i t) (hstep : i ≠ .frameStep) (hpresent : i ≠ .present) :
    t.presented = s.presented := by
  cases h with
  | wreg n v => rfl
  | cfg c => rfl
  | pixel hfatal h => exact h.pixelOnly.presented
  | setup hfatal hrender hpresent h => exact h.keeps.1.presented
  | render hfatal hphase => exact (renderFrame_keeps s).presented
  | present hfatal hphase => exact absurd rfl hpresent
  | beginFrame hfatal hphase => exact (beginFrame_keeps s).presented
  | frameStep hfatal hphase => exact absurd rfl hstep

/-- The operations of whole frames and scanlines leave the pixel latches alone. -/
theorem Runs.latch (h : Runs s i t) {y : Nat}
    (hi : i ∈ [Instr.frameStep, .beginFrame, .render, .present, .scanline y]) : t.latch = s.latch := by
  cases h with
  | wreg n v => rfl
  | cfg c => rfl
  | pixel hfatal h =>
    cases h with
    | latched i l hno hmode => exact absurd hi (hno y)
    | dithered i mode hdither => simp only [List.mem_cons, List.not_mem_nil] at hi hdither; grind
    | clip n => simp at hi
    | fetchState y => simp at hi
    | pixelWrite hphase => simp at hi
    | fastPixel i y x c hfast hphase => simp only [List.mem_cons, List.not_mem_nil] at hi hfast; grind
    | scanline y hy hphase => rfl
    | noScanline y hy hphase => rfl
  | setup hfatal hrender hpresent h => exact h.keeps.1.latch
  | render hfatal hphase => exact (renderFrame_keeps s).latch
  | present hfatal hphase => rfl
  | beginFrame hfatal hphase => exact (beginFrame_keeps s).latch
  | frameStep hfatal hphase => exact (frameStep_keeps s).2.2.2

/-- In the render phase `C`, `S` and the log are kept (R217). -/
theorem Runs.settings_of_render (h : Runs s i t) (hr : s.scan.phase = .render) :
    t.frame = s.frame ∧ t.pipe = s.pipe ∧ t.log = s.log := by
  cases h with
  | wreg n v => exact ⟨rfl, rfl, rfl⟩
  | cfg c => exact ⟨rfl, rfl, rfl⟩
  | pixel hfatal h => exact ⟨h.pixelOnly.frame, h.pixelOnly.pipe, h.pixelOnly.log⟩
  | setup hfatal hrender hpresent h => exact absurd hr hrender
  | render hfatal hphase =>
    exact ⟨(renderFrame_settings s).frame, (renderFrame_settings s).pipe, (renderFrame_settings s).log⟩
  | present hfatal hphase => exact ⟨rfl, rfl, rfl⟩
  | beginFrame hfatal hphase => rw [hphase] at hr; cases hr
  | frameStep hfatal hphase => rw [hphase] at hr; cases hr

/-- Outside `WREG` the slots are kept. -/
theorem Runs.slots (h : Runs s i t) (hw : ∀ n v, i ≠ .wreg n v) : t.slots = s.slots := by
  cases h with
  | wreg n v => exact absurd rfl (hw n v)
  | cfg c => rfl
  | pixel hfatal h => exact h.pixelOnly.slots
  | setup hfatal hrender hpresent h => exact h.keeps.1.slots
  | render hfatal hphase => exact (renderFrame_keeps s).slots
  | present hfatal hphase => rfl
  | beginFrame hfatal hphase => exact (beginFrame_keeps s).slots
  | frameStep hfatal hphase => exact (frameStep_keeps s).2.1

/-- Outside `CFG` the configuration inputs are kept. -/
theorem Runs.config (h : Runs s i t) (hc : ∀ c, i ≠ .cfg c) : t.config = s.config := by
  cases h with
  | wreg n v => rfl
  | cfg c => exact absurd rfl (hc c)
  | pixel hfatal h => exact h.pixelOnly.config
  | setup hfatal hrender hpresent h => exact h.keeps.1.config
  | render hfatal hphase => exact (renderFrame_keeps s).config
  | present hfatal hphase => rfl
  | beginFrame hfatal hphase => exact (beginFrame_keeps s).config
  | frameStep hfatal hphase => exact (frameStep_keeps s).2.2.1

end

/-- Settles O55: what each kind of operation keeps, field by field. -/
theorem operationsWriteOnlyWhatTheyOwn : Obligations.OperationsWriteOnlyWhatTheyOwn := by
  intro i s t h
  have hrun := runs_of_exec h
  obtain ⟨hparams, hrequests, hfailures, hmemory⟩ := hrun.host
  exact ⟨hmemory, hparams, hrequests, hfailures, hrun.reg_draws, hrun.presented, fun y hi => hrun.latch hi,
    hrun.settings_of_render, hrun.slots, hrun.config⟩

/-! ### The log -/

theorem Runs.log_prefix {s t : State} {i : Instr} (h : Runs s i t) : s.log <+: t.log := by
  cases h with
  | wreg n v => exact List.prefix_rfl
  | cfg c => exact List.prefix_rfl
  | pixel hfatal h => rw [h.pixelOnly.log]
  | setup hfatal hrender hpresent h =>
    cases h with
    | blankSkip h => exact List.prefix_rfl
    | blank h => unfold blankFrame; split <;> exact List.prefix_rfl
    | reserved => exact List.prefix_append _ _
    | aaMode i m hi => exact List.prefix_rfl
    | progressive => rw [applyScan_eq]; exact List.prefix_rfl
    | interlaced => rw [applyScan_eq]; exact List.prefix_append _ _
    | modeNormal => unfold latchMode; split <;> exact List.prefix_rfl
  | render hfatal hphase => rw [(renderFrame_settings s).log]
  | present hfatal hphase => exact List.prefix_rfl
  | beginFrame hfatal hphase => exact beginFrame_log_prefix s
  | frameStep hfatal hphase => rw [(frameStep_settings s).log]; exact beginFrame_log_prefix s

/-- Settles O56: every kind of operation appends to the log at most. -/
theorem outcomeLogOnlyGrows : Obligations.OutcomeLogOnlyGrows := by
  intro s t h
  exact step_relates (fun s t => s.log <+: t.log) (fun _ => List.prefix_rfl)
    (fun _ _ _ _ _ _ => List.prefix_rfl) (fun _ _ _ _ hrun => hrun.log_prefix) h

/-! ### The parity control -/

/-- The sequencer leaves a decided parity control alone (R189). -/
theorem sequenceFields_emuParity {p : PipelineState} (h : p.emuParity ≠ .undetermined) (valid : Bool)
    (C : FrameConfig) : (sequenceFields valid C p).emuParity = p.emuParity := by
  change inferParity valid C p = p.emuParity
  rw [inferParity, if_neg fun hinfer => h hinfer.2.2]

theorem beginFrame_emuParity {s : State} (h : s.pipe.emuParity ≠ .undetermined) :
    (beginFrame s).pipe.emuParity = s.pipe.emuParity := by
  rcases beginFrame_pipe_cases s with ⟨valid, C, q, -, e⟩ | ⟨q, e⟩ <;> rw [e]
  · exact sequenceFields_emuParity h valid C
  · rfl

theorem Runs.emuParity {s t : State} {i : Instr} (h : Runs s i t) (hp : s.pipe.emuParity ≠ .undetermined) :
    t.pipe.emuParity = s.pipe.emuParity := by
  cases h with
  | wreg n v => rfl
  | cfg c => rfl
  | pixel hfatal h => rw [h.pixelOnly.pipe]
  | setup hfatal hrender hpresent h =>
    cases h with
    | blankSkip h => rfl
    | blank h => unfold blankFrame; split <;> rfl
    | reserved => rfl
    | aaMode i m hi => rfl
    | progressive => rw [applyScan_eq]; exact sequenceFields_emuParity hp _ _
    | interlaced => rw [applyScan_eq]; exact sequenceFields_emuParity hp _ _
    | modeNormal => unfold latchMode; split <;> rfl
  | render hfatal hphase => rw [(renderFrame_settings s).pipe]
  | present hfatal hphase => rfl
  | beginFrame hfatal hphase => exact beginFrame_emuParity hp
  | frameStep hfatal hphase => rw [(frameStep_settings s).pipe]; exact beginFrame_emuParity hp

/-- Settles O54: only the sequencer writes the parity control, and only an undetermined one. -/
theorem parityControlIsDecidedOnce : Obligations.ParityControlIsDecidedOnce := by
  intro s t h
  exact step_relates (fun s t => s.pipe.emuParity ≠ .undetermined → t.pipe.emuParity = s.pipe.emuParity)
    (fun _ _ => rfl) (fun _ _ _ _ _ _ _ => rfl) (fun _ _ _ _ hrun hp => hrun.emuParity hp) h

/-! ### The fatal mark -/

/-- A stuck block stays stuck: the host's writes alone run there. -/
theorem Runs.fatal_of_fatal {s t : State} {i : Instr} (h : Runs s i t) (hs : s.fatal = true) : t.fatal = true := by
  cases h with
  | wreg n v => exact hs
  | cfg c => exact hs
  | pixel hfatal h => simp [hfatal] at hs
  | setup hfatal hrender hpresent h => simp [hfatal] at hs
  | render hfatal hphase => simp [hfatal] at hs
  | present hfatal hphase => simp [hfatal] at hs
  | beginFrame hfatal hphase => simp [hfatal] at hs
  | frameStep hfatal hphase => simp [hfatal] at hs

theorem beginFrame_fatal {s : State} (hs : s.fatal = false) (ht : (beginFrame s).fatal = true) :
    (beginFrame s).result = some (.fatal .f1) := by
  rcases (beginFrame_control s).2.2 with e | ⟨-, e⟩
  · rw [e, hs] at ht; cases ht
  · exact e

theorem renderFrame_fatal {s : State} (hs : s.fatal = false) (ht : (renderFrame s).fatal = true) :
    (renderFrame s).scan.phase = .idle ∧ (renderFrame s).result = some (.fatal .f2) := by
  rcases renderFrame_phase s with ⟨-, e, -⟩ | ⟨hphase, -, e, -⟩
  · rw [e, hs] at ht; cases ht
  · exact ⟨hphase, e⟩

@[simp] theorem presentFrame_fatal (s : State) : (presentFrame s).fatal = s.fatal := rfl

theorem frameStep_fatal {s : State} (hs : s.fatal = false) (ht : (frameStep s).fatal = true) :
    ∃ code, (frameStep s).result = some (.fatal code) := by
  rcases frameStep_cases s with ⟨-, e⟩ | ⟨hphase, -, e⟩ | ⟨hphase, hjoin, e⟩ <;> rw [e] at ht ⊢
  · exact ⟨_, beginFrame_fatal hs ht⟩
  · have hb : (beginFrame s).fatal = false := (beginFrame_render hphase).1.trans hs
    exact ⟨_, (renderFrame_fatal hb ht).2⟩
  · have hb : (beginFrame s).fatal = false := (beginFrame_render hphase).1.trans hs
    rw [presentFrame_fatal] at ht
    have hidle := (renderFrame_fatal hb ht).1
    rw [hjoin] at hidle; cases hidle

/-- A block that becomes stuck reports a Fatal. -/
theorem Runs.result_of_fatal {s t : State} {i : Instr} (h : Runs s i t) (hs : s.fatal = false)
    (ht : t.fatal = true) : ∃ code, t.result = some (.fatal code) := by
  cases h with
  | wreg n v => simp [hs] at ht
  | cfg c => simp [hs] at ht
  | pixel hfatal h => rw [h.pixelOnly.fatal, hs] at ht; cases ht
  | setup hfatal hrender hpresent h => rw [h.keeps.2.2.2, hs] at ht; cases ht
  | render hfatal hphase => exact ⟨_, (renderFrame_fatal hs ht).2⟩
  | present hfatal hphase => simp [presentFrame, hs] at ht
  | beginFrame hfatal hphase => exact ⟨_, beginFrame_fatal hs ht⟩
  | frameStep hfatal hphase => exact frameStep_fatal hs ht

/-- Settles O52: every step keeps the mark, and one that sets it has raised F1 or F2. -/
theorem fatalMarkIsForEver : Obligations.FatalMarkIsForEver := by
  refine ⟨rfl, fun _ => rfl, fun _ _ => rfl, fun s t h => ?_⟩
  refine step_relates (fun s t => (s.fatal = true → t.fatal = true) ∧
    (s.fatal = false → t.fatal = true → ∃ code, t.result = some (.fatal code))) ?refl ?store ?runs h
  case refl => exact fun s => ⟨id, fun hs ht => by simp [hs] at ht⟩
  case store => exact fun s rest st m _ _ => ⟨id, fun hs ht => by simp [hs] at ht⟩
  case runs => exact fun s rest i t hrun => ⟨hrun.fatal_of_fatal, hrun.result_of_fatal⟩

/-! ### The phase -/

theorem phaseLegal_iff {s : State} :
    s.phaseLegal = true ↔ s.scan.phase ≠ .begin ∧ (s.scan.phase = .render → s.scan.i ≤ lineLength s) ∧
      (s.handedOver = true → s.scan.phase = .idle ∧ s.fatal = false) := by
  simp only [State.phaseLegal, Bool.and_eq_true, Bool.or_eq_true, Bool.not_eq_true', decide_eq_false_iff_not,
    decide_eq_true_eq, and_assoc]
  cases s.handedOver <;> by_cases h : s.scan.phase = .render <;> simp [h]

/-- A stage of the pixel pipeline leaves the pixel number within the line. -/
theorem DrawsPixel.pixelNumber {s t : State} {i : Instr} (h : DrawsPixel s i t) (hs : s.scan.i ≤ lineLength s) :
    t.scan.i ≤ lineLength s := by
  cases h with
  | latched i l hi hmode => exact hs
  | dithered i mode hi => rw [gammaDitherStage_phase]; exact hs
  | clip n =>
    rcases moveToPixel_cases n s with ⟨hn, e⟩ | ⟨-, e⟩ <;> rw [startPixel, e]
    · exact hn.le
    · exact hs
  | fetchState y =>
    rcases moveToScanline_cases y s with ⟨-, e⟩ | ⟨-, e⟩ <;> rw [startScanline, e]
    · exact Nat.zero_le _
    · exact hs
  | pixelWrite hphase =>
    rcases storePixel_cases s with ⟨hin, e⟩ | ⟨-, e⟩ <;> rw [e]
    · exact (insideFrame_iff.mp hin).2
    · exact hs
  | fastPixel i y x c hi hphase =>
    rcases fastPixel_cases y x c s with ⟨hin, e⟩ | ⟨-, e⟩ <;> rw [e]
    · exact (insideFrame_iff.mp hin).2
    · exact hs
  | scanline y hy hphase => exact Nat.zero_le _
  | noScanline y hy hphase => exact hs

theorem DrawsPixel.phaseLegal {s t : State} {i : Instr} (h : DrawsPixel s i t) (hs : s.phaseLegal = true) :
    t.phaseLegal = true := by
  have hp := h.pixelOnly
  have hline : lineLength t = lineLength s := by unfold lineLength; rw [hp.sampled, hp.frame]
  obtain ⟨hbegin, hrender, hover⟩ := phaseLegal_iff.mp hs
  refine phaseLegal_iff.mpr ⟨?_, fun hphase => ?_, fun ho => ?_⟩
  · rw [h.phase]; exact hbegin
  · rw [h.phase] at hphase
    rw [hline]
    exact h.pixelNumber (hrender hphase)
  · rw [hp.handedOver] at ho
    rw [h.phase, hp.fatal]
    exact hover ho

theorem Runs.phaseLegal {s t : State} {i : Instr} (h : Runs s i t) (hs : s.phaseLegal = true) :
    t.phaseLegal = true := by
  obtain ⟨hbegin, -, hover⟩ := phaseLegal_iff.mp hs
  cases h with
  | wreg n v => exact hs
  | cfg c => exact hs
  | pixel hfatal h => exact h.phaseLegal hs
  | setup hfatal hrender hpresent h =>
    obtain ⟨hphase, hhand⟩ := h.control
    refine phaseLegal_iff.mpr ⟨?_, fun hr => ?_, fun ho => ?_⟩
    · rcases hphase with e | e <;> rw [e]
      · exact hbegin
      · decide
    · rcases hphase with e | e <;> rw [e] at hr
      · exact absurd hr hrender
      · cases hr
    · rcases hhand with e | ⟨e, hscan⟩ <;> rw [e] at ho
      · cases ho
      · rw [hscan, h.keeps.2.2.2]; exact hover ho
  | render hfatal hphase =>
    have hno : s.handedOver = false := by
      by_contra ho
      have := (hover (by simpa using ho)).1
      rw [hphase] at this; cases this
    rcases renderFrame_phase s with ⟨e, -, -, ho⟩ | ⟨e, -, -, ho⟩ <;>
      exact phaseLegal_iff.mpr ⟨by rw [e]; decide, by rw [e]; nofun, by simp [ho, hno]⟩
  | present hfatal hphase =>
    exact phaseLegal_iff.mpr ⟨by simp [presentFrame], by simp [presentFrame], fun _ => ⟨rfl, hfatal⟩⟩
  | beginFrame hfatal hphase =>
    obtain ⟨hscan, ho, -⟩ := beginFrame_control s
    refine phaseLegal_iff.mpr ⟨?_, fun _ => ?_, by simp [ho]⟩
    · rcases hscan with e | e <;> rw [e] <;> decide
    · rcases hscan with e | e <;> rw [e] <;> exact Nat.zero_le _
  | frameStep hfatal hphase =>
    refine phaseLegal_iff.mpr ⟨by rw [frameStep_phase]; decide, by rw [frameStep_phase]; nofun, fun ho => ?_⟩
    refine ⟨frameStep_phase s, ?_⟩
    obtain ⟨-, hbover, -⟩ := beginFrame_control s
    rcases frameStep_cases s with ⟨-, e⟩ | ⟨-, hidle, e⟩ | ⟨hr, hjoin, e⟩ <;> rw [e] at ho ⊢
    · rw [hbover] at ho; cases ho
    · rcases renderFrame_phase (Machine.beginFrame s) with ⟨hpres, -⟩ | ⟨-, -, -, hno⟩
      · rw [hidle] at hpres; cases hpres
      · rw [hno] at ho; cases ho
    · rcases renderFrame_phase (Machine.beginFrame s) with ⟨-, hf, -⟩ | ⟨hidle, -⟩
      · rw [presentFrame_fatal]
        exact hf.trans ((beginFrame_render hr).1.trans hfatal)
      · rw [hjoin] at hidle; cases hidle

/-! ### The ranges -/

theorem rangesLegal_iff {s : State} :
    s.rangesLegal = true ↔ frameLegal s.params s.frame = true ∧ s.pipe.oldVstart ≤ s.params.vFieldMask.toNat := by
  simp [State.rangesLegal]

/-- The sequencer remembers a vertical start in range. -/
theorem sequenceFields_oldVstart {P : Params} {C : FrameConfig} {p : PipelineState} (hC : frameLegal P C = true)
    (hp : p.oldVstart ≤ P.vFieldMask.toNat) (valid : Bool) :
    (sequenceFields valid C p).oldVstart ≤ P.vFieldMask.toNat := by
  obtain ⟨⟨-, -, -, -, -, -, -, hvs, -⟩, -⟩ := frameLegal_iff.mp hC
  change (if valid then C.vsRaw else p.oldVstart) ≤ _
  split
  · exact hvs
  · exact hp

theorem applyScan_rangesLegal {s : State} (hs : s.rangesLegal = true) (serrate : Bool) :
    (applyScan serrate s).rangesLegal = true := by
  obtain ⟨hframe, hold⟩ := rangesLegal_iff.mp hs
  rw [applyScan_eq]
  exact rangesLegal_iff.mpr ⟨hframe, sequenceFields_oldVstart hframe hold _⟩

theorem SetsUp.rangesLegal {s t : State} {i : Instr} (h : SetsUp s i t) (hs : s.rangesLegal = true) :
    t.rangesLegal = true := by
  cases h with
  | blankSkip h => exact hs
  | blank h => unfold blankFrame; split <;> exact hs
  | reserved => exact hs
  | aaMode i m hi => exact hs
  | progressive => exact applyScan_rangesLegal hs false
  | interlaced => exact applyScan_rangesLegal hs true
  | modeNormal => unfold latchMode; split <;> exact hs

theorem beginFrame_rangesLegal {s : State} (hs : s.rangesLegal = true) : (beginFrame s).rangesLegal = true := by
  obtain ⟨-, hold⟩ := rangesLegal_iff.mp hs
  have hparams := (beginFrame_keeps s).params
  refine rangesLegal_iff.mpr ⟨hparams ▸ frameLegal_beginFrame s, ?_⟩
  rw [hparams]
  rcases beginFrame_pipe_cases s with ⟨valid, C, q, hC, e⟩ | ⟨q, e⟩ <;> rw [e]
  · exact sequenceFields_oldVstart hC hold valid
  · exact hold

/-- A state with the parameters, `C` and `S` of one with fields in range has them in range. -/
theorem rangesLegal_congr {s t : State} (hp : t.params = s.params) (hframe : t.frame = s.frame)
    (hpipe : t.pipe = s.pipe) (hs : s.rangesLegal = true) : t.rangesLegal = true := by
  rw [rangesLegal_iff] at hs ⊢
  rw [hp, hframe, hpipe]; exact hs

theorem Runs.rangesLegal {s t : State} {i : Instr} (h : Runs s i t) (hs : s.rangesLegal = true) :
    t.rangesLegal = true := by
  cases h with
  | wreg n v => exact hs
  | cfg c => exact hs
  | pixel hfatal h => exact rangesLegal_congr h.pixelOnly.params h.pixelOnly.frame h.pixelOnly.pipe hs
  | setup hfatal hrender hpresent h => exact h.rangesLegal hs
  | render hfatal hphase =>
    exact rangesLegal_congr (renderFrame_keeps s).params (renderFrame_settings s).frame (renderFrame_settings s).pipe hs
  | present hfatal hphase => exact hs
  | beginFrame hfatal hphase => exact beginFrame_rangesLegal hs
  | frameStep hfatal hphase =>
    have hparams := (frameStep_keeps s).1.params.trans (beginFrame_keeps s).params.symm
    exact rangesLegal_congr hparams (frameStep_settings s).frame (frameStep_settings s).pipe
      (beginFrame_rangesLegal hs)

/-- A scan operation leaves the active lines in range when the active count is (R199). -/
theorem applyScan_activeLegal {s : State} (h0 : 0 ≤ activeCount s.params s.frame)
    (h1 : activeCount s.params s.frame ≤ s.params.maxH) (serrate : Bool) :
    (applyScan serrate s).activeLegal = true := by
  rw [applyScan_eq, activeLegal_iff]
  simp only [State.withPipe_frame, State.withPipe_params, State.withFrame_frame, State.withFrame_params]
  split <;> omega

theorem Runs.activeLegal {s t : State} {i : Instr} (h : Runs s i t)
    (hscan : i = .scanProgressive ∨ i = .scanInterlaced →
      0 ≤ activeCount s.params s.frame ∧ activeCount s.params s.frame ≤ s.params.maxH)
    (hs : s.activeLegal = true) : t.activeLegal = true := by
  cases h with
  | wreg n v => exact hs
  | cfg c => exact hs
  | pixel hfatal h =>
    rw [activeLegal_iff] at hs ⊢
    rw [h.pixelOnly.params, h.pixelOnly.frame]; exact hs
  | setup hfatal hrender hpresent h =>
    cases h with
    | blankSkip h => exact hs
    | blank h => unfold blankFrame; split <;> exact hs
    | reserved => exact hs
    | aaMode i m hi => exact hs
    | progressive =>
      obtain ⟨h0, h1⟩ := hscan (.inl rfl)
      exact applyScan_activeLegal h0 h1 false
    | interlaced =>
      obtain ⟨h0, h1⟩ := hscan (.inr rfl)
      exact applyScan_activeLegal h0 h1 true
    | modeNormal => unfold latchMode; split <;> exact hs
  | render hfatal hphase =>
    rw [activeLegal_iff] at hs ⊢
    rw [(renderFrame_keeps s).params, (renderFrame_settings s).frame]; exact hs
  | present hfatal hphase => exact hs
  | beginFrame hfatal hphase =>
    rw [activeLegal_iff, (beginFrame_keeps s).params]; exact beginFrame_vactive s
  | frameStep hfatal hphase =>
    rw [activeLegal_iff, (frameStep_keeps s).1.params, (frameStep_settings s).frame]; exact beginFrame_vactive s

/-- Settles O51: the phase, the ranges and the active lines, each kept by every kind of operation. -/
theorem stepKeepsTheRanges : Obligations.StepKeepsTheRanges := by
  intro s t h
  rcases step_cases h with rfl | ⟨r, rest, hr, ⟨st, m, -, -, rfl⟩ | ⟨i, hi, hrun⟩⟩
  · exact ⟨id, id, fun _ => id⟩
  · exact ⟨id, id, fun _ => id⟩
  · refine ⟨hrun.phaseLegal, hrun.rangesLegal, fun hactive => hrun.activeLegal fun hscan => hactive r rest hr ?_⟩
    rcases hscan with rfl | rfl
    · exact .inl hi
    · exact .inr hi

end Sys2Proof.Machine
end

section
/-! PROOFS. Refusals, what reads the register slots, the host's writes, the mode operations and the reset. -/

namespace Sys2Proof.Machine

/-! ### Refusals -/

theorem blockOperation_fatal (f : State → State) {s : State} (h : s.fatal = true) :
    blockOperation f s = .refused .afterFatal := by simp [blockOperation, h]

theorem phaseOperation_fatal (p : Phase) (f : State → State) {s : State} (h : s.fatal = true) :
    phaseOperation p f s = .refused .afterFatal := by simp [phaseOperation, h]

theorem setupOperation_fatal (f : State → State) {s : State} (h : s.fatal = true) :
    setupOperation f s = .refused .afterFatal := by simp [setupOperation, h]

theorem phaseOperation_refused (f : State → State) {p : Phase} {s : State} (h : s.fatal = false)
    (hp : s.scan.phase ≠ p) : phaseOperation p f s = .refused (.outOfPhase s.scan.phase) := by
  simp [phaseOperation, h, hp]

theorem setupOperation_refused (f : State → State) {s : State} (h : s.fatal = false)
    (hp : s.scan.phase = .render ∨ s.scan.phase = .present) :
    setupOperation f s = .refused (.outOfPhase s.scan.phase) := by
  simp [setupOperation, h, hp]

/-- Every operation but the host's writes stands behind a guard that a stuck block refuses. -/
theorem exec_fatal {s : State} (h : s.fatal = true) (i : Instr) :
    (∃ n v, i = .wreg n v) ∨ (∃ c, i = .cfg c) ∨ exec i s = .refused .afterFatal := by
  cases i with dsimp only [exec]
  | wreg n v => exact .inl ⟨n, v, rfl⟩
  | cfg c => exact .inr (.inl ⟨c, rfl⟩)
  | fmtBlank => exact .inr (.inr (setupOperation_fatal _ h))
  | fmtReserved => exact .inr (.inr (setupOperation_fatal _ h))
  | scanProgressive => exact .inr (.inr (setupOperation_fatal _ h))
  | scanInterlaced => exact .inr (.inr (setupOperation_fatal _ h))
  | aaMode00 => exact .inr (.inr (setupOperation_fatal _ h))
  | aaMode01 => exact .inr (.inr (setupOperation_fatal _ h))
  | aaMode10 => exact .inr (.inr (setupOperation_fatal _ h))
  | aaMode11 => exact .inr (.inr (setupOperation_fatal _ h))
  | modeNormal => exact .inr (.inr (setupOperation_fatal _ h))
  | pixelWrite => exact .inr (.inr (phaseOperation_fatal _ _ h))
  | scanline y => exact .inr (.inr (phaseOperation_fatal _ _ h))
  | frameStep => exact .inr (.inr (phaseOperation_fatal _ _ h))
  | beginFrame => exact .inr (.inr (phaseOperation_fatal _ _ h))
  | render => exact .inr (.inr (phaseOperation_fatal _ _ h))
  | present => exact .inr (.inr (phaseOperation_fatal _ _ h))
  | rawColor16 y x => exact .inr (.inr (phaseOperation_fatal _ _ h))
  | rawColor32 y x => exact .inr (.inr (phaseOperation_fatal _ _ h))
  | depth y x => exact .inr (.inr (phaseOperation_fatal _ _ h))
  | coverage y x => exact .inr (.inr (phaseOperation_fatal _ _ h))
  | _ => exact .inr (.inr (blockOperation_fatal _ h))

/-- Settles O53: the guard of each operation, in a stuck block and outside its phase. -/
theorem stuckAndMisplacedOperationsAreRefused : Obligations.StuckAndMisplacedOperationsAreRefused := by
  refine ⟨fun i s h => exec_fatal h i, fun s h => ⟨fun hidle => ?_, fun hrender y x => ?_,
    fun hpresent => phaseOperation_refused _ h hpresent, fun hphase => ?_⟩⟩ <;>
    simp only [List.forall_mem_cons, List.not_mem_nil, false_imp_iff, implies_true, and_true, exec]
  · exact ⟨phaseOperation_refused _ h hidle, phaseOperation_refused _ h hidle⟩
  · exact ⟨phaseOperation_refused _ h hrender, phaseOperation_refused _ h hrender,
      phaseOperation_refused _ h hrender, phaseOperation_refused _ h hrender, phaseOperation_refused _ h hrender,
      phaseOperation_refused _ h hrender, phaseOperation_refused _ h hrender⟩
  · exact ⟨setupOperation_refused _ h hphase, setupOperation_refused _ h hphase, setupOperation_refused _ h hphase,
      setupOperation_refused _ h hphase, setupOperation_refused _ h hphase, setupOperation_refused _ h hphase,
      setupOperation_refused _ h hphase, setupOperation_refused _ h hphase, setupOperation_refused _ h hphase⟩

/-! ### Who reads the slots -/

/-- A change of the slots passes into both branches of a choice. -/
theorem State.withSlots_ite (c : Prop) [Decidable c] (s t : State) (r : Regs) :
    (if c then s else t).withSlots r = if c then s.withSlots r else t.withSlots r :=
  apply_ite (State.withSlots · r) c s t

section
variable {f : State → State} {s t : State} {r : Regs}

/-- An effect that commutes with a change of the slots does so behind its guard. -/
theorem blockOperation_withSlots (h : blockOperation f s = .next t)
    (hf : f (s.withSlots r) = (f s).withSlots r) : blockOperation f (s.withSlots r) = .next (t.withSlots r) := by
  obtain ⟨hfatal, rfl⟩ := blockOperation_next_iff.mp h
  exact blockOperation_next_iff.mpr ⟨hfatal, hf⟩

theorem phaseOperation_withSlots {p : Phase} (h : phaseOperation p f s = .next t)
    (hf : f (s.withSlots r) = (f s).withSlots r) : phaseOperation p f (s.withSlots r) = .next (t.withSlots r) := by
  obtain ⟨hfatal, hp, rfl⟩ := phaseOperation_next_iff.mp h
  exact phaseOperation_next_iff.mpr ⟨hfatal, hp, hf⟩

theorem setupOperation_withSlots (h : setupOperation f s = .next t)
    (hf : f (s.withSlots r) = (f s).withSlots r) : setupOperation f (s.withSlots r) = .next (t.withSlots r) := by
  obtain ⟨hfatal, hr, hp, rfl⟩ := setupOperation_next_iff.mp h
  exact setupOperation_next_iff.mpr ⟨hfatal, hr, hp, hf⟩

end

section
variable (s : State) (r : Regs)

theorem gammaDitherStage_withSlots (mode : GdMode) :
    gammaDitherStage mode (s.withSlots r) = (gammaDitherStage mode s).withSlots r := by
  rw [gammaDitherStage, gammaDitherStage, State.withSlots_ite]; rfl

theorem startPixel_withSlots (n : Nat) : startPixel n (s.withSlots r) = (startPixel n s).withSlots r := by
  have hmove : moveToPixel n (s.withSlots r) = (moveToPixel n s).withSlots r := by
    rw [moveToPixel, moveToPixel, State.withSlots_ite]; rfl
  rw [startPixel, startPixel, hmove]; rfl

theorem startScanline_withSlots (y : Nat) : startScanline y (s.withSlots r) = (startScanline y s).withSlots r := by
  have hmove : moveToScanline y (s.withSlots r) = (moveToScanline y s).withSlots r := by
    rw [moveToScanline, moveToScanline, State.withSlots_ite]; rfl
  rw [startScanline, startScanline, hmove]; rfl

theorem storePixel_withSlots : storePixel (s.withSlots r) = (storePixel s).withSlots r := by
  rw [storePixel, storePixel, State.withSlots_ite]; rfl

theorem fastPixel_withSlots (y x : Nat) (c : Colour) :
    fastPixel y x c (s.withSlots r) = (fastPixel y x c s).withSlots r := by
  rw [fastPixel, fastPixel, State.withSlots_ite]; rfl

theorem runWorkers_withSlots : runWorkers (s.withSlots r) = (runWorkers s).withSlots r :=
  List.foldl_hom (State.withSlots · r) fun _ _ =>
    List.foldl_hom (State.withSlots · r) fun _ _ => rfl

theorem renderFrame_withSlots : renderFrame (s.withSlots r) = (renderFrame s).withSlots r := by
  rw [renderFrame, renderFrame, State.withSlots_ite]
  simp only [runWorkers_withSlots, State.withSlots_ite]
  rfl

theorem blankFrame_withSlots : blankFrame (s.withSlots r) = (blankFrame s).withSlots r := by
  rw [blankFrame, blankFrame, State.withSlots_ite]; rfl

theorem latchMode_withSlots (mode : DisplayMode) :
    latchMode mode (s.withSlots r) = (latchMode mode s).withSlots r := by
  rw [latchMode, latchMode, State.withSlots_ite]; rfl

theorem warnReserved_withSlots : warnReserved (s.withSlots r) = (warnReserved s).withSlots r := by
  rw [warnReserved, warnReserved, State.withSlots_ite]; rfl

theorem applyScan_withSlots (serrate : Bool) :
    applyScan serrate (s.withSlots r) = (applyScan serrate s).withSlots r := by
  rw [applyScan_eq, applyScan_eq]; rfl

theorem warnDropped_withSlots : warnDropped (s.withSlots r) = (warnDropped s).withSlots r := rfl

end

/-- Settles O57: the effect of each operation but the capturing ones commutes with a change of the slots. -/
theorem onlyTheCaptureReadsTheSlots : Obligations.OnlyTheCaptureReadsTheSlots := by
  intro i s t r hstep hbegin hwreg h
  cases i with dsimp only [exec] at h ⊢
  | frameStep => exact absurd rfl hstep
  | beginFrame => exact absurd rfl hbegin
  | wreg n v => exact absurd rfl (hwreg n v)
  | cfg c => cases h; rfl
  | gdDither => exact blockOperation_withSlots h (gammaDitherStage_withSlots s r _)
  | gdGammaDither => exact blockOperation_withSlots h (gammaDitherStage_withSlots s r _)
  | hblankClip n => exact blockOperation_withSlots h (startPixel_withSlots s r n)
  | fetchState y => exact blockOperation_withSlots h (startScanline_withSlots s r y)
  | pixelWrite => exact phaseOperation_withSlots h (storePixel_withSlots s r)
  | rawColor16 y x => exact phaseOperation_withSlots h (fastPixel_withSlots s r y x _)
  | rawColor32 y x => exact phaseOperation_withSlots h (fastPixel_withSlots s r y x _)
  | depth y x => exact phaseOperation_withSlots h (fastPixel_withSlots s r y x _)
  | coverage y x => exact phaseOperation_withSlots h (fastPixel_withSlots s r y x _)
  | scanline y =>
    refine phaseOperation_withSlots h ?_
    rw [State.withSlots_ite]; rfl
  | render => exact phaseOperation_withSlots h (renderFrame_withSlots s r)
  | present => exact phaseOperation_withSlots h rfl
  | fmtBlank =>
    refine setupOperation_withSlots h ?_
    rw [State.withSlots_ite, ← blankFrame_withSlots]; rfl
  | fmtReserved =>
    exact setupOperation_withSlots h (warnReserved_withSlots (s.withFrame (withFormat s.frame .reserved)) r)
  | scanProgressive => exact setupOperation_withSlots h (applyScan_withSlots s r false)
  | scanInterlaced =>
    refine setupOperation_withSlots h ?_
    rw [applyScan_withSlots, warnDropped_withSlots]
  | modeNormal =>
    exact setupOperation_withSlots h (latchMode_withSlots
      ((s.withHandedOver false).withSampled { s.sampled with displayMode := .normal }) r .normal)
  | aaMode00 => exact setupOperation_withSlots h rfl
  | aaMode01 => exact setupOperation_withSlots h rfl
  | aaMode10 => exact setupOperation_withSlots h rfl
  | aaMode11 => exact setupOperation_withSlots h rfl
  | _ => exact blockOperation_withSlots h rfl

/-! ### The host's writes and the mode operations -/

/-- A register after a write of one. -/
theorem Regs.get_set (r : Regs) (n k : RegName) (v : Word) :
    (r.set n v).get k = if k = n then v else r.get k := by
  cases n <;> cases k <;> rfl

/-- Settles O23: a register write is read at its slot alone, and a configuration write is its record update. -/
theorem hostWritesSetOneInput : Obligations.HostWritesSetOneInput := by
  intro s
  refine ⟨fun n v => ⟨s.slots.set n v, rfl, ?same, fun k hk => ?other⟩, fun _ => rfl, fun _ => rfl, fun _ => rfl,
    fun _ => rfl, fun _ => rfl, fun _ => rfl⟩
  case same => rw [Regs.get_set, if_pos rfl]
  case other => rw [Regs.get_set, if_neg hk]

/-- Settles O24: each of the six behind its guard. -/
theorem modeOperationsSetTheirFields : Obligations.ModeOperationsSetTheirFields := by
  intro s hfatal hr hp
  dsimp only [exec]
  exact ⟨setupOperation_clear _ hfatal hr hp, setupOperation_clear _ hfatal hr hp, setupOperation_clear _ hfatal hr hp,
    setupOperation_clear _ hfatal hr hp, ⟨_, setupOperation_clear _ hfatal hr hp, rfl, rfl⟩,
    setupOperation_clear _ hfatal hr hp⟩

/-! ### Reset -/

/-- The model's sign is the library's. -/
theorem signOf_eq_sign (v : Int) : signOf v = Int.sign v := by
  unfold signOf
  split
  next hpos => rw [Int.sign_eq_one_of_pos hpos]
  next hnot =>
    split
    next hneg => rw [Int.sign_eq_neg_one_of_neg hneg]
    next => rw [show v = 0 by omega, Int.sign_zero]

/-- An entry of the restore table is the sign of the difference of the two halves of its index (R252). -/
theorem restoreTable_append (n5 c5 : BitVec 5) : restoreTable (n5 ++ c5) = Int.sign ((n5.toNat : Int) - c5.toNat) := by
  have hhigh : (n5 ++ c5).extractLsb' 5 5 = n5 := by
    apply BitVec.eq_of_toNat_eq
    rw [BitVec.extractLsb'_toNat, Nat.shiftRight_eq_div_pow, toNat_append_eq]
    omega
  have hlow : (n5 ++ c5).extractLsb' 0 5 = c5 := by
    apply BitVec.eq_of_toNat_eq
    rw [BitVec.extractLsb'_toNat, Nat.shiftRight_eq_div_pow, toNat_append_eq]
    omega
  rw [restoreTable, signOf_eq_sign, hhigh, hlow]

/-- A reset is the reset of a host that has set nothing. -/
theorem resetBlock_reset : resetBlock State.reset = State.reset := rfl

/-- Settles O47: every field of the block at its reset value, every field of the host as before. -/
theorem resetLeavesTheStatedValues : Obligations.ResetLeavesTheStatedValues := by
  refine ⟨fun s0 => ⟨fun n => ?_, rfl, rfl, rfl, rfl, rfl, rfl, fun _ => rfl, rfl, fun row col => readOut_nil _ row col,
    fun _ => rfl, rfl, rfl, rfl, rfl, rfl, rfl, rfl⟩, resetBlock_reset, rfl, rfl, rfl, rfl, rfl, restoreTable_append⟩
  cases n <;> rfl

theorem resetBlock_invariants (s : State) :
    (resetBlock s).cachesCoherent = true ∧ (resetBlock s).phaseLegal = true ∧ (resetBlock s).rangesLegal = true ∧
      (resetBlock s).activeLegal = true := by
  have hframe : frameLegal s.params {} = true := by
    refine frameLegal_iff.mpr ⟨⟨?_, rfl, rfl, ?_, ?_, Nat.zero_le _, Nat.zero_le _, Nat.zero_le _, Nat.zero_le _, ?_, ?_⟩,
      le_rfl, le_rfl, le_rfl, le_rfl⟩ <;> decide
  refine ⟨cachesCoherent_of_phase ?_, phaseLegal_iff.mpr ⟨?_, ?_, ?_⟩,
    rangesLegal_iff.mpr ⟨hframe, Nat.zero_le _⟩, activeLegal_iff.mpr ⟨le_rfl, Int.natCast_nonneg _⟩⟩ <;> simp

/-- Settles O48: a reset leaves empty maps, no cache, the phase `IDLE` and every field of `C` and `S` at 0. -/
theorem resetMeetsTheInvariants : Obligations.ResetMeetsTheInvariants := by
  have hreset := resetBlock_invariants State.reset
  rw [resetBlock_reset] at hreset
  exact ⟨⟨rfl, hreset⟩, fun s hwf => ⟨resetBlock_wf hwf, resetBlock_invariants s⟩⟩

end Sys2Proof.Machine
end

section
/-! PROOFS. Memory and the first stages of a pixel: the views of a pixel, host stores, the two fetches, the fetch state,
the blanking clip and the pixel write. -/

namespace Sys2Proof.Machine

/-! ### Two views of memory -/

/-- A 32-bit pixel inside memory is made of its two 16-bit halves (R91). -/
theorem read32_eq_halves {P : Params} (m : Memory) {i : Int} (h0 : 0 ≤ i) (h1 : i < ((P.rdramSize / 4 : Nat) : Int)) :
    (read32 P m i).toNat = (read16 P m (2 * i)).toNat * 2 ^ 16 + (read16 P m (2 * i + 1)).toNat := by
  obtain ⟨-, hword, -⟩ := pixelReadsByIndex P m i
  obtain ⟨hhigh, -⟩ := pixelReadsByIndex P m (2 * i)
  obtain ⟨hlow, -⟩ := pixelReadsByIndex P m (2 * i + 1)
  rw [if_pos (by omega)] at hword hhigh hlow
  have hhighAt : 2 * (2 * i).toNat = 4 * i.toNat := by omega
  have hlowAt : 2 * (2 * i + 1).toNat = 4 * i.toNat + 2 := by omega
  rw [hword, hhigh, hlow, hhighAt, hlowAt, show 4 * i.toNat + 2 + 1 = 4 * i.toNat + 3 from rfl]
  omega

/-- Settles O7: the halves are read big-endian at twice the index, and no read of a pixel looks at a hidden value. -/
theorem pixelViewsOverlap : Obligations.PixelViewsOverlap :=
  fun _ m _ h0 h1 => ⟨read32_eq_halves m h0 h1, fun _ => rfl⟩

/-! ### Host stores -/

/-- A store may land exactly outside the render phase or in a stuck block. -/
theorem storeAllowed_iff {s : State} : storeAllowed s = true ↔ s.fatal = true ∨ s.scan.phase ≠ .render := by
  simp [storeAllowed]

/-- Two bytes stored at a 16-bit pixel are read back as its value. -/
theorem read16_writeBytes {P : Params} {m : Memory} (hm : m.wf P.rdramSize = true) {i : Nat}
    (hi : i < P.rdramSize / 2) (v : BitVec 16) :
    read16 P (writeBytes m (2 * i) [v.extractLsb' 8 8, v.extractLsb' 0 8]) i = v := by
  have hbyte (k : Nat) (hk : k < 2) := readByte_writeBytes_inside
    [v.extractLsb' 8 8, v.extractLsb' 0 8] m (2 * i) k hk hm (show 2 * i + 2 ≤ P.rdramSize by omega)
  have hhigh := hbyte 0 (by omega)
  have hlow := hbyte 1 (by omega)
  obtain ⟨hread, -⟩ :=
    pixelReadsByIndex P (writeBytes m (2 * i) [v.extractLsb' 8 8, v.extractLsb' 0 8]) (i : Int)
  rw [Nat.add_zero] at hhigh
  rw [if_pos (by omega), Int.toNat_natCast, hhigh, hlow] at hread
  apply BitVec.eq_of_toNat_eq
  rw [hread]
  simp only [List.getElem_cons_zero, List.getElem_cons_succ, BitVec.extractLsb'_toNat, Nat.shiftRight_eq_div_pow]
  have := v.isLt
  omega

/-- Four bytes stored at a 32-bit pixel are read back as its value. -/
theorem read32_writeBytes {P : Params} {m : Memory} (hm : m.wf P.rdramSize = true) {i : Nat}
    (hi : i < P.rdramSize / 4) (v : BitVec 32) :
    read32 P (writeBytes m (4 * i)
      [v.extractLsb' 24 8, v.extractLsb' 16 8, v.extractLsb' 8 8, v.extractLsb' 0 8]) i = v := by
  have hbyte (k : Nat) (hk : k < 4) := readByte_writeBytes_inside
    [v.extractLsb' 24 8, v.extractLsb' 16 8, v.extractLsb' 8 8, v.extractLsb' 0 8] m (4 * i) k hk hm
    (show 4 * i + 4 ≤ P.rdramSize by omega)
  have h0 := hbyte 0 (by omega)
  have h1 := hbyte 1 (by omega)
  have h2 := hbyte 2 (by omega)
  have h3 := hbyte 3 (by omega)
  obtain ⟨-, hread, -⟩ := pixelReadsByIndex P (writeBytes m (4 * i)
    [v.extractLsb' 24 8, v.extractLsb' 16 8, v.extractLsb' 8 8, v.extractLsb' 0 8]) (i : Int)
  rw [Nat.add_zero] at h0
  rw [if_pos (by omega), Int.toNat_natCast, h0, h1, h2, h3] at hread
  apply BitVec.eq_of_toNat_eq
  rw [hread]
  simp only [List.getElem_cons_zero, List.getElem_cons_succ, BitVec.extractLsb'_toNat, Nat.shiftRight_eq_div_pow]
  have := v.isLt
  omega

/-- Settles O8: the store is refused between dispatch and join, faults outside memory, and else is read back at its pixel
with every other byte and hidden value as before. -/
theorem hostStoreWritesOnePixel : Obligations.HostStoreWritesOnePixel := by
  intro s
  refine ⟨fun hfatal hphase st => ?refused, fun hallowed => ?lands⟩
  case refused => simp [execStore, storeAllowed, hfatal, hphase]
  case lands =>
    have hallow : storeAllowed s = true := storeAllowed_iff.mpr hallowed
    refine ⟨fun i v hi => ?fault16, fun i v hi => ?fault32, fun i v hi => ?faultHid, fun hwf => ?stores⟩
    case fault16 => simp [execStore, hallow, storedMemory, hi]
    case fault32 => simp [execStore, hallow, storedMemory, hi]
    case faultHid => simp [execStore, hallow, storedMemory, hi]
    case stores =>
      obtain ⟨hmemory, -⟩ := State.wf_iff.mp hwf
      refine ⟨fun i v hi => ⟨_, execStore_next_iff.mpr ⟨hallow, _, if_pos hi, rfl⟩, ?_, ?_, ?_⟩,
        fun i v hi => ⟨_, execStore_next_iff.mpr ⟨hallow, _, if_pos hi, rfl⟩, ?_, ?_, ?_⟩,
        fun i v hi => ⟨_, execStore_next_iff.mpr ⟨hallow, _, if_pos hi, rfl⟩, ?_, ?_, fun a => rfl⟩⟩
      · exact read16_writeBytes hmemory hi v
      · intro j; rw [readHiddenCell, writeBytes_hidden]; rfl
      · intro a h0 h1
        exact readByte_writeBytes_outside _ _ _ _ (by simp only [List.length_cons, List.length_nil]; omega)
      · exact read32_writeBytes hmemory hi v
      · intro j; rw [readHiddenCell, writeBytes_hidden]; rfl
      · intro a ha
        exact readByte_writeBytes_outside _ _ _ _ (by simp only [List.length_cons, List.length_nil]; omega)
      · rw [readHidden_eq, if_pos (by omega), Int.toNat_natCast, readHiddenCell_writeHidden hmemory, if_pos rfl]
      · intro j hj
        rw [readHiddenCell_writeHidden hmemory, if_neg hj]

/-! ### Bit fields of a pixel -/

/-- Cutting a word off a wider one and masking it commute with reading it as a number. -/
theorem setWidth_and_eq_ofNat {v w : Nat} (x y : BitVec v) :
    (x &&& y).setWidth w = BitVec.ofNat w (x.toNat &&& y.toNat) := by
  apply BitVec.eq_of_toNat_eq
  simp only [BitVec.toNat_setWidth, BitVec.toNat_and, BitVec.toNat_ofNat]

/-- A left shift wraps above the word, which a narrower number does not see. -/
theorem ofNat_shiftLeft_and {v w : Nat} (x : BitVec v) (k mask : Nat) (h : w ≤ v) :
    BitVec.ofNat w ((x <<< k).toNat &&& mask) = BitVec.ofNat w ((x.toNat <<< k) &&& mask) := by
  apply BitVec.eq_of_toNat_eq
  simp only [BitVec.toNat_ofNat, BitVec.toNat_shiftLeft, Nat.and_mod_two_pow,
    Nat.mod_mod_of_dvd _ (Nat.pow_dvd_pow 2 h)]

/-- The channels of a 5551 word as masks of its number (R243). -/
theorem decode5551_eq (p : BitVec 16) :
    decode5551 p = ⟨BitVec.ofNat 8 ((p.toNat >>> 8) &&& 0xF8), BitVec.ofNat 8 ((p.toNat >>> 3) &&& 0xF8),
      BitVec.ofNat 8 ((p.toNat <<< 2) &&& 0xF8)⟩ := by
  have hshift (x : BitVec 16) : (x &&& 0xF8).setWidth 8 = BitVec.ofNat 8 (x.toNat &&& 0xF8) :=
    setWidth_and_eq_ofNat x 0xF8
  rw [decode5551, hshift, hshift, hshift, ofNat_shiftLeft_and p 2 0xF8 (by decide), BitVec.toNat_ushiftRight,
    BitVec.toNat_ushiftRight]

/-- The channels of an 8888 word as masks of its number (R245). -/
theorem decode8888_eq (q : Word) :
    decode8888 q = ⟨BitVec.ofNat 8 ((q.toNat >>> 24) &&& 0xFF), BitVec.ofNat 8 ((q.toNat >>> 16) &&& 0xFF),
      BitVec.ofNat 8 ((q.toNat >>> 8) &&& 0xFF)⟩ := by
  have hshift (x : Word) : (x &&& 0xFF).setWidth 8 = BitVec.ofNat 8 (x.toNat &&& 0xFF) :=
    setWidth_and_eq_ofNat x 0xFF
  rw [decode8888, hshift, hshift, hshift, BitVec.toNat_ushiftRight, BitVec.toNat_ushiftRight,
    BitVec.toNat_ushiftRight]

/-- The coverage of a 5551 word, its low bit over its hidden value (R244). -/
theorem coverage5551_eq (p : BitVec 16) (h : BitVec 2) :
    coverage5551 p h = BitVec.ofNat 3 (((p.toNat &&& 1) <<< 2) ||| h.toNat) := by
  have hh := h.isLt
  apply BitVec.eq_of_toNat_eq
  rw [coverage5551, toNat_append_eq, BitVec.toNat_ofNat, ← Nat.shiftLeft_add_eq_or_of_lt hh, Nat.shiftLeft_eq,
    Nat.and_one_is_mod, BitVec.extractLsb'_toNat, Nat.shiftRight_zero]
  omega

/-- The coverage of an 8888 word, its bits 7 to 5 (R246). -/
theorem coverage8888_eq (q : Word) : coverage8888 q = BitVec.ofNat 3 ((q.toNat >>> 5) &&& 7) := by
  apply BitVec.eq_of_toNat_eq
  rw [coverage8888, BitVec.extractLsb'_toNat, BitVec.toNat_ofNat, Nat.and_two_pow_sub_one_eq_mod _ 3]
  omega

/-- Settles O9: each fetch latches the decoded channels and the coverage, and nothing else. -/
theorem fetchLatchesTheSample : Obligations.FetchLatchesTheSample := by
  intro s idx hfatal
  have h16 : execFetch5551 idx s =
      .next (s.withLatch (latchFetch s.latch idx (fetch16 s.params s.memory s.frame idx))) :=
    blockOperation_clear _ hfatal
  have h32 : execFetch8888 idx s =
      .next (s.withLatch (latchFetch s.latch idx (fetch32 s.params s.memory s.frame idx))) :=
    blockOperation_clear _ hfatal
  dsimp only [exec]
  rw [h16, h32]
  simp only [fetch16, fetch32, latchFetch, decode5551_eq, decode8888_eq, coverage5551_eq, coverage8888_eq, and_self]

/-! ### Scan accumulators and positions -/

/-- A right shift by a literal is a division rounded down. -/
theorem shiftRight_natCast_eq_div (a : Int) (k : Nat) : a >>> (k : Int) = a / 2 ^ k := by
  rw [Int.shiftRight_natCast_right, Int.shiftRight_eq_div_pow, Nat.cast_pow, Nat.cast_ofNat]

theorem shiftRight_three_eq_div (a : Int) : a >>> (3 : Int) = a / 8 := shiftRight_natCast_eq_div a 3
theorem shiftRight_five_eq_div (a : Int) : a >>> (5 : Int) = a / 32 := shiftRight_natCast_eq_div a 5
theorem shiftRight_ten_eq_div (a : Int) : a >>> (10 : Int) = a / 1024 := shiftRight_natCast_eq_div a 10

/-- The source row of a scanline (R204). -/
theorem srow_eq (C : FrameConfig) (y : Int) : srow C y = (C.yStart + y * C.yAdd) / 1024 := shiftRight_ten_eq_div _

/-- The source column of a pixel (R204). -/
theorem scol_eq (C : FrameConfig) (i : Int) : scol C i = (C.xStart + i * C.xAdd) / 1024 := shiftRight_ten_eq_div _

/-- The vertical fraction of a scanline (R204). -/
theorem yfrac_eq (C : FrameConfig) (y : Int) : yfrac C y = ((C.yStart + y * C.yAdd) / 32) % 32 :=
  congrArg (· % 32) (shiftRight_five_eq_div _)

/-- The horizontal fraction of a pixel (R204). -/
theorem xfrac_eq (C : FrameConfig) (i : Int) : xfrac C i = ((C.xStart + i * C.xAdd) / 32) % 32 :=
  congrArg (· % 32) (shiftRight_five_eq_div _)

/-- The frame's scanline count is that of its display mode. -/
theorem scanlineCount_eq (s : State) :
    scanlineCount s = (if s.sampled.displayMode = .normal then s.frame.vres else s.frame.vresRaw).toNat := by
  unfold scanlineCount
  cases s.sampled.displayMode <;> rfl

/-- The line's pixel count is that of its display mode. -/
theorem lineLength_eq (s : State) :
    lineLength s = (if s.sampled.displayMode = .normal then s.frame.hres else s.frame.hresRaw).toNat := by
  unfold lineLength
  cases s.sampled.displayMode <;> rfl

theorem lt_scanlineCount_iff {s : State} {y : Nat} :
    y < scanlineCount s ↔ (y : Int) < if s.sampled.displayMode = .normal then s.frame.vres else s.frame.vresRaw := by
  rw [scanlineCount_eq]; omega

theorem lt_lineLength_iff {s : State} {i : Nat} :
    i < lineLength s ↔ (i : Int) < if s.sampled.displayMode = .normal then s.frame.hres else s.frame.hresRaw := by
  rw [lineLength_eq]; omega

/-- Settles O20: the clip marks the pixel by the margins, and moves to it inside the line. -/
theorem clipMarksThePixel : Obligations.ClipMarksThePixel := by
  intro s i hfatal
  have hclip : exec (.hblankClip i) s = .next (startPixel i s) := blockOperation_clear _ hfatal
  have hmove : moveToPixel i s = s.withScan (if i < lineLength s then { s.scan with i := i } else s.scan) := by
    rcases moveToPixel_cases i s with ⟨h, e⟩ | ⟨h, e⟩
    · rw [e, if_pos h]
    · rw [e, if_neg h]; rfl
  rw [hclip, startPixel, hmove]
  simp only [lt_lineLength_iff, clippedAt, Bool.decide_or]

/-- The fetch state by the source rows, when the fetch bug is on (R266). -/
theorem fetchStateOf_enabled {P : Params} (h : P.fetchBugEnable = true) (C : FrameConfig) (y : Int) :
    fetchStateOf P C y =
      if srow C (y + 1) = srow C y then .fs2 else if 1 ≤ y ∧ srow C (y - 1) = srow C y then .fs1 else .fs0 := by
  unfold fetchStateOf
  rw [if_neg (by simp [h])]
  split
  next => rfl
  next hnext => simp only [hnext, ne_eq, not_false_eq_true, and_true]

/-- A scanline has fetch state 2 exactly when the next one reads its source row. -/
theorem fetchStateOf_eq_fs2_iff {P : Params} (h : P.fetchBugEnable = true) (C : FrameConfig) (y : Int) :
    fetchStateOf P C y = .fs2 ↔ srow C (y + 1) = srow C y := by
  rw [fetchStateOf_enabled h]
  split
  next hnext => simp [hnext]
  next hnext =>
    simp only [hnext, iff_false]
    split <;> simp

/-- Settles O22: the state by the source rows of the scanline and its two neighbours; a state of 1 stands where the row
before has state 2 and the run ends. -/
theorem fetchStateMarksAliasedRows : Obligations.FetchStateMarksAliasedRows := by
  intro s y hfatal
  have hmove : moveToScanline y s =
      s.withScan (if y < scanlineCount s then { s.scan with y := y, i := 0 } else s.scan) := by
    rcases moveToScanline_cases y s with ⟨h, e⟩ | ⟨h, e⟩
    · rw [e, if_pos h]
    · rw [e, if_neg h]; rfl
  have hstart : exec (.fetchState y) s = .next (startScanline y s) := blockOperation_clear _ hfatal
  refine ⟨fetchStateOf s.params s.frame y, ?_, fun hoff => ?_, fun hon => ⟨?_, ?_⟩⟩
  · rw [hstart, startScanline, hmove]
    simp only [lt_scanlineCount_iff]
  · simp [fetchStateOf, hoff]
  · rw [fetchStateOf_enabled hon]
    simp only [srow_eq, Nat.one_le_cast]
  · rw [fetchStateOf_eq_fs2_iff hon, fetchStateOf_enabled hon, sub_add_cancel]
    simp only [← srow_eq, Nat.one_le_cast]
    split
    next hnext => simp [hnext]
    next hnext =>
      split
      next hprev => simp [hprev.1, hprev.2, hnext]
      next hprev =>
        refine iff_of_false (by simp) ?_
        rintro ⟨h1, -, hrow⟩
        exact hprev ⟨h1, hrow.symm⟩

/-- Settles O21: inside the frame one word is stored and the position advances; outside it nothing happens. -/
theorem pixelWriteStoresOneWord : Obligations.PixelWriteStoresOneWord := by
  intro s hfatal hphase hwf
  obtain ⟨-, hout, -, -⟩ := State.wf_iff.mp hwf
  have hwrite : exec .pixelWrite s = .next (storePixel s) := phaseOperation_clear _ hfatal hphase
  have hframe : insideFrame s s.scan.y s.scan.i = true ↔
      (s.scan.y : Int) < (if s.sampled.displayMode = .normal then s.frame.vres else s.frame.vresRaw) ∧
        (s.scan.i : Int) < (if s.sampled.displayMode = .normal then s.frame.hres else s.frame.hresRaw) := by
    rw [insideFrame_iff, lt_scanlineCount_iff, lt_lineLength_iff]
  simp only [← hframe]
  rcases storePixel_cases s with ⟨hin, e⟩ | ⟨hin, e⟩
  · refine ⟨fun _ => ⟨_, hwrite.trans (by rw [e]), fun hraster => ?_, fun r c hrc => ?_⟩, fun h => absurd hin h⟩
    · have hr : inRaster s.params (outRow s.frame s.scan.y) (s.frame.hStart + s.scan.i) = true := by
        rw [inRaster_iff]; exact ⟨⟨hraster.1, hraster.2.1⟩, hraster.2.2⟩
      change (readOut s.params _ (outRow s.frame s.scan.y) (s.frame.hStart + s.scan.i)).toNat = _
      rw [readOut_writeOut hout, if_pos ⟨hr, rfl, rfl⟩, latchedPixel]
      split
      · rfl
      · rw [pack_toNat]; norm_num
    · rw [readOut_writeOut hout, if_neg]
      rintro ⟨-, rfl, rfl⟩
      rcases hrc with h | h <;> exact h rfl
  · exact ⟨fun h => by simp [hin] at h, fun _ => by rw [hwrite, e]⟩

end Sys2Proof.Machine
end

section
/-! PROOFS. The filters of a pixel: the restore filter, the extrema of the blend filter and the blend itself, the divot, and
the bilinear scaler. -/

namespace Sys2Proof.Machine

/-! ### A byte of a number in range -/

/-- A number in the range of a byte is the byte it is cut to. -/
theorem ofInt_eight_toNat {z : Int} (h0 : 0 ≤ z) (h1 : z < 256) : ((BitVec.ofInt 8 z).toNat : Int) = z := by
  rw [BitVec.toNat_ofInt]
  omega

@[simp] theorem sampleChannel_sampleOf (f : Channel → Byte) (cvg : BitVec 3) (ch : Channel) :
    sampleChannel (sampleOf f cvg) ch = f ch := by cases ch <;> rfl

@[simp] theorem sampleOf_cvg (f : Channel → Byte) (cvg : BitVec 3) : (sampleOf f cvg).cvg = cvg := rfl

theorem colourChannel_sampleColour (s : Sample) (ch : Channel) :
    colourChannel (sampleColour s) ch = sampleChannel s ch := by cases ch <;> rfl

theorem lineFetchState_eq (l : PixelLatches) (line : Line) :
    lineFetchState l line = if line = .current then .fs0 else l.fs := by cases line <;> rfl

/-! ### The restore filter -/

/-- The correction is the sum of the signs of the differences (R252). -/
theorem restoreCorrection_eq_sum (c5 : BitVec 5) (n5s : List (BitVec 5)) :
    restoreCorrection c5 n5s = (n5s.map fun n5 => Int.sign ((n5.toNat : Int) - c5.toNat)).sum := by
  have hfold (l : List (BitVec 5)) : ∀ acc : Int,
      l.foldl (fun acc n5 => acc + restoreTable (n5 ++ c5)) acc =
        acc + (l.map fun n5 => Int.sign ((n5.toNat : Int) - c5.toNat)).sum := by
    induction l with
    | nil => intro acc; simp
    | cons n5 l ih =>
      intro acc
      rw [List.foldl_cons, ih, List.map_cons, List.sum_cons, restoreTable_append, add_assoc]
  rw [restoreCorrection, hfold, zero_add]

/-- A sum of signs is no greater than their number, and no greater than 0 when no sign is positive. -/
theorem sum_sign_le (l : List (BitVec 5)) (c5 : BitVec 5) :
    (l.map fun n5 => Int.sign ((n5.toNat : Int) - c5.toNat)).sum ≤ if c5.toNat = 31 then 0 else (l.length : Int) := by
  induction l with
  | nil => simp
  | cons n5 l ih =>
    have hn := n5.isLt
    rw [List.map_cons, List.sum_cons, List.length_cons]
    rcases Int.sign_trichotomy ((n5.toNat : Int) - c5.toNat) with hs | hs | hs
    · have hpos := Int.sign_eq_one_iff_pos.mp hs
      split at ih <;> split <;> omega
    · split at ih <;> split <;> omega
    · split at ih <;> split <;> omega

/-- A sum of signs is no less than their number negated, and no less than 0 when no sign is negative. -/
theorem le_sum_sign (l : List (BitVec 5)) (c5 : BitVec 5) :
    (if c5.toNat = 0 then 0 else -(l.length : Int)) ≤ (l.map fun n5 => Int.sign ((n5.toNat : Int) - c5.toNat)).sum := by
  induction l with
  | nil => simp
  | cons n5 l ih =>
    rw [List.map_cons, List.sum_cons, List.length_cons]
    rcases Int.sign_trichotomy ((n5.toNat : Int) - c5.toNat) with hs | hs | hs
    · split at ih <;> split <;> omega
    · split at ih <;> split <;> omega
    · have hneg := Int.sign_eq_neg_one_iff_neg.mp hs
      split at ih <;> split <;> omega

/-- The top five bits of a channel. -/
theorem top5_toNat (c : Byte) : (c.extractLsb' 3 5).toNat = c.toNat / 8 := by
  have := c.isLt
  rw [BitVec.extractLsb'_toNat, Nat.shiftRight_eq_div_pow]; omega

/-- The restore filter of at most 8 neighbours adds its correction to each channel and never wraps. -/
theorem restoreWith_channel (top5 : Int → Channel → BitVec 5) (s : Sample) {nbrs : List Int} (hlen : nbrs.length ≤ 8)
    (ch : Channel) :
    ((sampleChannel (restoreWith top5 s nbrs) ch).toNat : Int) = (sampleChannel s ch).toNat +
      (nbrs.map fun n =>
        Int.sign (((top5 n ch).toNat : Int) - (((sampleChannel s ch).toNat / 8 : Nat) : Int))).sum := by
  have hc := (sampleChannel s ch).isLt
  have hlow := le_sum_sign (nbrs.map fun n => top5 n ch) ((sampleChannel s ch).extractLsb' 3 5)
  have hhigh := sum_sign_le (nbrs.map fun n => top5 n ch) ((sampleChannel s ch).extractLsb' 3 5)
  rw [restoreWith, sampleChannel_sampleOf, restoreCorrection_eq_sum]
  simp only [top5_toNat, List.map_map, List.length_map, Function.comp_def] at hlow hhigh ⊢
  apply ofInt_eight_toNat
  · split at hlow <;> omega
  · split at hhigh <;> omega

/-- The neighbours are 8. -/
theorem restoreNeighbours_length (w idx : Int) (fs : FetchState) : (restoreNeighbours w idx fs).length = 8 := by
  unfold restoreNeighbours
  split <;> rfl

theorem top5of16_toNat (p : BitVec 16) (ch : Channel) :
    (top5of16 p ch).toNat = (p.toNat >>> (match ch with | .r => 11 | .g => 6 | .b => 1)) % 32 := by
  cases ch <;> exact BitVec.extractLsb'_toNat _ _ _

theorem top5of32_toNat (p : Word) (ch : Channel) :
    (top5of32 p ch).toNat = (p.toNat >>> (match ch with | .r => 27 | .g => 19 | .b => 11)) % 32 := by
  cases ch <;> exact BitVec.extractLsb'_toNat _ _ _

/-- Settles O10: both widths of the restore filter, on the 8 neighbours of the fetched index. -/
theorem restoreAddsTheSigns : Obligations.RestoreAddsTheSigns := by
  intro s slot line hfatal
  dsimp only [exec]
  refine ⟨_, _, blockOperation_clear _ hfatal, blockOperation_clear _ hfatal, rfl, rfl, fun ch => ⟨?_, ?_⟩⟩
  · rw [restore16, restoreWith_channel _ _ (restoreNeighbours_length _ _ _).le, lineFetchState_eq]
    simp only [top5of16_toNat]
    rfl
  · rw [restore32, restoreWith_channel _ _ (restoreNeighbours_length _ _ _).le, lineFetchState_eq]
    simp only [top5of32_toNat]
    rfl

/-! ### The pass of R262

The maximum and the minimum are found by one pass, the same for the two orders: `r a b` says that `b` is better than `a`. -/

/-- The better of two numbers, the first one when neither is. -/
def better (r : Nat → Nat → Prop) [DecidableRel r] (a b : Nat) : Nat := if r a b then b else a

/-- One element of the pass: the position of the best number so far, and the number it replaced. -/
def passStep (r : Nat → Nat → Prop) [DecidableRel r] (p : List Nat) (st : Nat × Nat) (i : Nat) : Nat × Nat :=
  if r (p.getD st.1 0) (p.getD i 0) then (i, p.getD st.1 0) else st

section
variable (r : Nat → Nat → Prop) [DecidableRel r]

theorem better_self (c : Nat) : better r c c = c := by
  unfold better
  split <;> rfl

/-- The best of a list is an element of it. -/
theorem foldl_better_mem (l : List Nat) : ∀ c, l.foldl (better r) c ∈ c :: l := by
  induction l with
  | nil => intro c; simp
  | cons x l ih =>
    intro c
    have hx := ih (better r c x)
    have hb : better r c x = c ∨ better r c x = x := by unfold better; split <;> simp
    rw [List.foldl_cons]
    rcases hb with e | e <;> rw [e] at hx ⊢ <;> simp only [List.mem_cons] at hx ⊢ <;> tauto

variable [IsStrictTotalOrder Nat r]

/-- Nothing in a list is better than the best of it. -/
theorem foldl_better_best (l : List Nat) : ∀ c, ∀ x ∈ c :: l, ¬r (l.foldl (better r) c) x := by
  induction l with
  | nil =>
    intro c x hx
    rw [List.mem_singleton.mp hx]
    exact irrefl c
  | cons y l ih =>
    intro c x hx
    rw [List.foldl_cons]
    have hhead : ¬r (l.foldl (better r) (better r c y)) (better r c y) := ih _ _ (List.mem_cons_self ..)
    have hworse (z : Nat) (hz : ¬r (better r c y) z) : ¬r (l.foldl (better r) (better r c y)) z := by
      intro hr
      rcases trichotomous_of r z (better r c y) with h | h | h
      · exact hhead (trans_of r hr h)
      · exact hhead (h ▸ hr)
      · exact hz h
    rcases List.mem_cons.mp hx with rfl | hx
    · refine hworse _ ?_
      unfold better
      split
      next hxy => exact asymm hxy
      next => exact irrefl _
    · rcases List.mem_cons.mp hx with rfl | hx
      · refine hworse _ ?_
        unfold better
        split
        next => exact irrefl _
        next hcx => exact hcx
      · exact ih _ _ (List.mem_cons_of_mem _ hx)

omit [IsStrictTotalOrder Nat r] in
/-- A number that nothing in the list is better than stays the best. -/
theorem foldl_better_eq_self {l : List Nat} {c : Nat} (h : ∀ x ∈ l, ¬r c x) : l.foldl (better r) c = c := by
  induction l with
  | nil => rfl
  | cons x l ih =>
    rw [List.foldl_cons, better, if_neg (h x (List.mem_cons_self ..))]
    exact ih fun y hy => h y (List.mem_cons_of_mem _ hy)

/-- What the pass has found in the list `q` that starts with `c`: the best number `M` splits `q` at its first position, and
the number it replaced is the best before it. -/
structure PassFound (c : Nat) (q : List Nat) (st : Nat × Nat) (A : List Nat) (M : Nat) (B : List Nat) : Prop where
  split : q = A ++ M :: B
  position : st.1 = A.length
  replaced : st.2 = A.foldl (better r) c
  before : ∀ a ∈ A, r a M
  after : ∀ b ∈ B, ¬r M b
  first : ∀ a A', A = a :: A' → a = c
  alone : A = [] → M = c

omit [IsStrictTotalOrder Nat r] in
/-- The best up to the split, and beyond it, is the number split at. -/
theorem PassFound.best {c : Nat} {q : List Nat} {st : Nat × Nat} {A : List Nat} {M : Nat} {B : List Nat}
    (h : PassFound r c q st A M B) : q.foldl (better r) c = M := by
  have hupTo : better r (A.foldl (better r) c) M = M := by
    cases hA : A with
    | nil => rw [h.alone hA]; exact better_self r c
    | cons a A' =>
      have hmem : A.foldl (better r) c ∈ A := by
        have := foldl_better_mem r A c
        rw [hA, h.first a A' hA] at this ⊢
        simpa using this
      rw [← hA, better, if_pos (h.before _ hmem)]
  rw [h.split, List.foldl_append, List.foldl_cons, hupTo]
  exact foldl_better_eq_self r h.after

/-- The pass finds one more element. -/
theorem PassFound.step {c : Nat} {q : List Nat} {st : Nat × Nat} {A : List Nat} {M : Nat} {B : List Nat}
    (h : PassFound r c q st A M B) {p : List Nat} {i : Nat} (hq : q.length = i) (hM : p.getD st.1 0 = M) :
    ∃ A' M' B', PassFound r c (q ++ [p.getD i 0]) (passStep r p st i) A' M' B' := by
  have hbest := h.best
  unfold passStep
  rw [hM]
  split
  next hr =>
    refine ⟨q, p.getD i 0, [], rfl, hq.symm, hbest.symm, fun a ha => ?_, by simp, fun a A' hqa => ?_, fun hqn => ?_⟩
    · rw [h.split, List.mem_append, List.mem_cons] at ha
      rcases ha with ha | rfl | ha
      · exact trans_of r (h.before a ha) hr
      · exact hr
      · rcases trichotomous_of r a M with hlt | rfl | hgt
        · exact trans_of r hlt hr
        · exact hr
        · exact absurd hgt (h.after a ha)
    · rw [h.split] at hqa
      cases hA : A with
      | nil => rw [hA, List.nil_append] at hqa; rw [← (List.cons.inj hqa).1, h.alone hA]
      | cons b A'' => rw [hA, List.cons_append] at hqa; rw [← (List.cons.inj hqa).1, h.first b A'' hA]
    · rw [h.split] at hqn; simp at hqn
  next hr =>
    refine ⟨A, M, B ++ [p.getD i 0], by rw [h.split]; simp, h.position, h.replaced, h.before, fun b hb => ?_, h.first,
      h.alone⟩
    rcases List.mem_append.mp hb with hb | hb
    · exact h.after b hb
    · rw [List.mem_singleton.mp hb]; exact hr

/-- The whole pass over a list. -/
theorem passFound_of_pass (c : Nat) (l : List Nat) : ∀ n ≤ l.length, ∃ A M B,
    PassFound r c ((c :: l).take (n + 1)) ((List.range' 1 n).foldl (passStep r (c :: l)) (0, c)) A M B := by
  intro n
  induction n with
  | zero =>
    intro _
    exact ⟨[], c, [], by simp, rfl, rfl, by simp, by simp, by simp, fun _ => rfl⟩
  | succ n ih =>
    intro hn
    obtain ⟨A, M, B, h⟩ := ih (by omega)
    have hlen : ((c :: l).take (n + 1)).length = n + 1 := by
      rw [List.length_take, List.length_cons]; omega
    have hnext : (c :: l).take (n + 1 + 1) = (c :: l).take (n + 1) ++ [(c :: l).getD (n + 1) 0] := by
      have hlt : n + 1 < (c :: l).length := by rw [List.length_cons]; omega
      rw [List.take_succ_eq_append_getElem hlt, List.getD_eq_getElem _ _ hlt]
    have hM : (c :: l).getD ((List.range' 1 n).foldl (passStep r (c :: l)) (0, c)).1 0 = M := by
      have hsplit : c :: l = A ++ M :: (B ++ (c :: l).drop (n + 1)) := by
        calc c :: l = (c :: l).take (n + 1) ++ (c :: l).drop (n + 1) := (List.take_append_drop ..).symm
          _ = _ := by rw [h.split]; simp
      rw [h.position]
      conv_lhs => rw [hsplit]
      simp
    rw [hnext, List.range'_concat, List.foldl_concat, Nat.one_mul, Nat.add_comm 1 n]
    exact h.step r hlen hM

/-- What the second look over the rest of the list leaves (R262): the best of the list without its first best element. -/
theorem pass_eq_erase (c : Nat) (l : List Nat) (st : Nat × Nat)
    (hst : st = (List.range' 1 l.length).foldl (passStep r (c :: l)) (0, c)) :
    (if st.2 ≠ (c :: l).getD st.1 0 then
        (List.range' (st.1 + 1) ((c :: l).length - (st.1 + 1))).foldl
          (fun v i => better r v ((c :: l).getD i 0)) st.2
      else st.2) = (l.erase (l.foldl (better r) c)).foldl (better r) c := by
  obtain ⟨A, M, B, h⟩ := passFound_of_pass r c l l.length le_rfl
  rw [← hst, List.take_of_length_le (by simp)] at h
  have hM : (c :: l).getD st.1 0 = M := by rw [h.position, h.split]; simp
  have hrest : (List.range' (st.1 + 1) ((c :: l).length - (st.1 + 1))).map ((c :: l).getD · 0) = B := by
    have hlen : (c :: l).length - (A.length + 1) = B.length := by rw [h.split]; simp; omega
    rw [h.position, hlen, h.split]
    apply List.ext_getElem
    · simp
    · intro i h1 h2
      simp [List.getD_eq_getElem?_getD, List.getElem?_append, Nat.add_assoc, Nat.add_comm 1 i, h2]
  have hsecond : (List.range' (st.1 + 1) ((c :: l).length - (st.1 + 1))).foldl
      (fun v i => better r v ((c :: l).getD i 0)) st.2 = (A ++ B).foldl (better r) c := by
    rw [List.foldl_append, ← h.replaced, ← hrest, List.foldl_map]
  rw [hM, hsecond]
  have hbest : l.foldl (better r) c = M := by
    have := h.best
    rwa [List.foldl_cons, better_self r c] at this
  cases hA : A with
  | nil =>
    have hMc := h.alone hA
    have hl : l = B := by
      have := h.split
      rw [hA, List.nil_append] at this
      exact (List.cons.inj this).2
    have hkeep (l' : List Nat) (hsub : ∀ x ∈ l', x ∈ l) : l'.foldl (better r) c = c :=
      foldl_better_eq_self r fun x hx => hMc ▸ h.after x (hl ▸ hsub x hx)
    have hst2 : st.2 = c := by rw [h.replaced, hA]; rfl
    rw [hst2, hMc, if_neg (by simp), hbest, hkeep _ fun x hx => List.mem_of_mem_erase hx]
  | cons a A' =>
    have ha : a = c := h.first a A' hA
    have hl : l = A' ++ M :: B := by
      have := h.split
      rw [hA, List.cons_append] at this
      exact (List.cons.inj this).2
    have hnot : M ∉ A' := fun hm => irrefl M (h.before M (by rw [hA]; exact List.mem_cons_of_mem _ hm))
    have herase : l.erase M = A' ++ B := by
      rw [hl, List.erase_append_right _ hnot, List.erase_cons_head]
    have hne : st.2 ≠ M := by
      have hmem : A.foldl (better r) c ∈ A := by
        have := foldl_better_mem r A c
        rw [hA, ha] at this ⊢
        simpa using this
      intro e
      rw [h.replaced] at e
      exact irrefl M (h.before M (e ▸ hmem))
    rw [if_pos hne, hbest, herase, List.cons_append, List.foldl_cons, ha, better_self r c]

end

/-! ### The extrema -/

theorem better_lt : better (· < ·) = max := by
  funext a b
  unfold better
  split <;> omega

theorem better_gt : better (· > ·) = min := by
  funext a b
  unfold better
  split <;> omega

/-- The two halves of the single pass do not meet: a number above the maximum is not below the minimum. -/
theorem scanCandidate_foldl (p : List Nat) (is : List Nat) : ∀ (c : Candidates),
    p.getD c.posmin 0 ≤ p.getD c.posmax 0 →
    ((is.foldl (scanCandidate p) c).posmax, (is.foldl (scanCandidate p) c).curpenmax) =
        is.foldl (passStep (· < ·) p) (c.posmax, c.curpenmax) ∧
      ((is.foldl (scanCandidate p) c).posmin, (is.foldl (scanCandidate p) c).curpenmin) =
        is.foldl (passStep (· > ·) p) (c.posmin, c.curpenmin) := by
  induction is with
  | nil => exact fun _ _ => ⟨rfl, rfl⟩
  | cons i is ih =>
    intro c hle
    simp only [List.foldl_cons]
    by_cases hmax : p.getD i 0 > p.getD c.posmax 0
    · have hmin : ¬p.getD c.posmin 0 > p.getD i 0 := by omega
      have hstep : scanCandidate p c i = { c with curpenmax := p.getD c.posmax 0, posmax := i } := by
        rw [scanCandidate, if_pos hmax]
      rw [hstep, show passStep (· < ·) p (c.posmax, c.curpenmax) i = (i, p.getD c.posmax 0) from if_pos hmax,
        show passStep (· > ·) p (c.posmin, c.curpenmin) i = (c.posmin, c.curpenmin) from if_neg hmin]
      exact ih _ (show p.getD c.posmin 0 ≤ p.getD i 0 by omega)
    · by_cases hmin : p.getD i 0 < p.getD c.posmin 0
      · have hstep : scanCandidate p c i = { c with curpenmin := p.getD c.posmin 0, posmin := i } := by
          rw [scanCandidate, if_neg hmax, if_pos hmin]
        rw [hstep, show passStep (· < ·) p (c.posmax, c.curpenmax) i = (c.posmax, c.curpenmax) from if_neg hmax,
          show passStep (· > ·) p (c.posmin, c.curpenmin) i = (i, p.getD c.posmin 0) from if_pos hmin]
        exact ih _ (show p.getD i 0 ≤ p.getD c.posmax 0 by omega)
      · have hstep : scanCandidate p c i = c := by rw [scanCandidate, if_neg hmax, if_neg hmin]
        rw [hstep, show passStep (· < ·) p (c.posmax, c.curpenmax) i = (c.posmax, c.curpenmax) from if_neg hmax,
          show passStep (· > ·) p (c.posmin, c.curpenmin) i = (c.posmin, c.curpenmin) from if_neg hmin]
        exact ih c hle

/-- The extrema of R262 in closed form. -/
theorem runningCandidate_eq (c : Nat) (l : List Nat) :
    runningCandidate (c :: l) =
      ((l.erase (l.foldl min c)).foldl min c, (l.erase (l.foldl max c)).foldl max c) := by
  obtain ⟨hmax, hmin⟩ := scanCandidate_foldl (c :: l) (List.range' 1 l.length) ⟨0, 0, c, c⟩ le_rfl
  have hlt (v i : Nat) : (if (c :: l).getD i 0 > v then (c :: l).getD i 0 else v) =
      better (· < ·) v ((c :: l).getD i 0) := rfl
  have hgt (v i : Nat) : (if (c :: l).getD i 0 < v then (c :: l).getD i 0 else v) =
      better (· > ·) v ((c :: l).getD i 0) := rfl
  rw [← better_lt, ← better_gt, ← pass_eq_erase (· < ·) c l _ hmax, ← pass_eq_erase (· > ·) c l _ hmin]
  simp only [runningCandidate, scanCandidates, hlt, hgt]
  rfl

/-- The extrema of R263 in closed form. -/
theorem exactExtrema_eq (c : Nat) (l : List Nat) : exactExtrema (c :: l) = (l.foldl min c, l.foldl max c) := by
  simp [exactExtrema]

/-- Under either reading the extrema are the extrema of the centre and some of the list behind it. -/
theorem extrema_cases (P : Params) (c : Nat) (l : List Nat) :
    ∃ l₁ l₂ : List Nat, (∀ x ∈ l₁, x ∈ l) ∧ (∀ x ∈ l₂, x ∈ l) ∧
      extrema P (c :: l) = (l₁.foldl (better (· > ·)) c, l₂.foldl (better (· < ·)) c) := by
  unfold extrema
  cases P.blendExtrema
  · exact ⟨_, _, fun _ => List.mem_of_mem_erase, fun _ => List.mem_of_mem_erase, by
      rw [better_lt, better_gt]; exact runningCandidate_eq c l⟩
  · exact ⟨l, l, fun _ => id, fun _ => id, by rw [better_lt, better_gt]; exact exactExtrema_eq c l⟩

/-- The extrema are elements of the list on either side of its first (R264). -/
theorem extrema_bracket (P : Params) (c : Nat) (l : List Nat) :
    (extrema P (c :: l)).1 ∈ c :: l ∧ (extrema P (c :: l)).2 ∈ c :: l ∧ (extrema P (c :: l)).1 ≤ c ∧
      c ≤ (extrema P (c :: l)).2 := by
  obtain ⟨l₁, l₂, h₁, h₂, e⟩ := extrema_cases P c l
  rw [e]
  refine ⟨List.cons_subset_cons c h₁ (foldl_better_mem _ _ _), List.cons_subset_cons c h₂ (foldl_better_mem _ _ _), ?_, ?_⟩
  · have := foldl_better_best (· > ·) l₁ c c (List.mem_cons_self ..)
    simp only; omega
  · have := foldl_better_best (· < ·) l₂ c c (List.mem_cons_self ..)
    simp only; omega

/-- Settles O12: the bracket, the closed form of each reading, and the four vectors. -/
theorem extremaBracketTheCentre : Obligations.ExtremaBracketTheCentre := by
  intro P c l
  obtain ⟨hmin, hmax, hle, hge⟩ := extrema_bracket P c l
  obtain ⟨l₁, l₂, h₁, h₂, e⟩ := extrema_cases P c l
  refine ⟨hmin, hmax, hle, hge, fun habove => ?_, fun hbelow => ?_, fun hexact => ?_, fun hrunning => ?_⟩
  · rw [e]; exact foldl_better_eq_self _ fun x hx => (habove x (h₂ x hx)).not_gt
  · rw [e]; exact foldl_better_eq_self _ fun x hx => (hbelow x (h₁ x hx)).not_gt
  · have hclosed : extrema P (c :: l) = (l.foldl min c, l.foldl max c) := by
      rw [extrema, hexact]; exact exactExtrema_eq c l
    refine ⟨hclosed, fun x hx => ?_⟩
    have hbelow := foldl_better_best (· > ·) l c x hx
    have habove := foldl_better_best (· < ·) l c x hx
    rw [better_gt] at hbelow
    rw [better_lt] at habove
    rw [hclosed]
    simp only; omega
  · have hread (p : List Nat) : extrema P p = runningCandidate p := by rw [extrema, hrunning]
    simp only [hread, runningCandidate_eq]
    decide

/-! ### The blend filter -/

/-- A masked field is the field shifted down, cut and shifted up again. -/
theorem and_shiftLeft_eq (x mask k : Nat) : x &&& (mask <<< k) = ((x >>> k) &&& mask) <<< k := by
  apply Nat.eq_of_testBit_eq
  intro j
  simp only [Nat.testBit_and, Nat.testBit_shiftLeft, Nat.testBit_shiftRight]
  by_cases h : k ≤ j
  · rw [Nat.add_sub_cancel' h]; simp [h]
  · simp [h]

/-- The mask of the top five bits of a byte, as arithmetic. -/
theorem and_0xF8_mod (x : Nat) : (x &&& 0xF8) % 2 ^ 8 = x / 8 % 32 * 8 := by
  rw [show (0xF8 : Nat) = (2 ^ 5 - 1) <<< 3 from rfl, and_shiftLeft_eq, Nat.and_two_pow_sub_one_eq_mod,
    Nat.shiftLeft_eq, Nat.shiftRight_eq_div_pow]
  omega

theorem decode5551_channel (p : BitVec 16) (ch : Channel) :
    (colourChannel (decode5551 p) ch).toNat =
      (p.toNat >>> (match ch with | .r => 11 | .g => 6 | .b => 1)) % 32 * 8 := by
  rw [decode5551_eq]
  cases ch <;> simp only [colourChannel, BitVec.toNat_ofNat, and_0xF8_mod, Nat.shiftRight_eq_div_pow, Nat.shiftLeft_eq] <;>
    omega

theorem decode8888_channel (q : Word) (ch : Channel) :
    (colourChannel (decode8888 q) ch).toNat =
      (q.toNat >>> (match ch with | .r => 24 | .g => 16 | .b => 8)) % 256 := by
  rw [decode8888_eq]
  cases ch <;> simp only [colourChannel, BitVec.toNat_ofNat] <;>
    rw [show (0xFF : Nat) = 2 ^ 8 - 1 from rfl, Nat.and_two_pow_sub_one_eq_mod, Nat.mod_mod]

theorem full16_eq (P : Params) (m : Memory) (n : Int) :
    full16 P m n = decide ((read16 P m n).toNat % 2 = 1 ∧ readHidden P m n = 3) := by
  have hbit : (read16 P m n).getLsbD 0 = decide ((read16 P m n).toNat % 2 = 1) := Nat.testBit_zero _
  rw [full16, hbit, Bool.decide_and]

theorem full32_eq (P : Params) (m : Memory) (n : Int) :
    full32 P m n = decide (((read32 P m n).toNat >>> 5) % 8 = 7) := by
  have hcvg : coverage8888 (read32 P m n) = 7 ↔ ((read32 P m n).toNat >>> 5) % 8 = 7 := by
    rw [← BitVec.toNat_inj, coverage8888, BitVec.extractLsb'_toNat]; rfl
  rw [full32, decide_eq_decide.mpr hcvg]

/-- The move of a blended channel stays between the extrema, so that the byte mask never acts (R264). -/
theorem blendChannel_bracket {c : Byte} {cvg : BitVec 3} {e : Nat × Nat} (h1 : e.1 ≤ c.toNat) (h2 : c.toNat ≤ e.2)
    (h3 : e.2 < 256) :
    ((blendChannel c cvg e).toNat : Int) = c.toNat + (((e.1 : Int) + e.2 - 2 * c.toNat) * (7 - cvg.toNat) + 4) / 8 ∧
      e.1 ≤ (blendChannel c cvg e).toNat ∧ (blendChannel c cvg e).toNat ≤ e.2 := by
  have hcvg := cvg.isLt
  have hk0 : (0 : Int) ≤ 7 - cvg.toNat := by omega
  have hk7 : (7 : Int) - cvg.toNat ≤ 7 := by omega
  have hup : ((e.1 : Int) + e.2 - 2 * c.toNat) * (7 - cvg.toNat) ≤ (e.2 - c.toNat) * 7 := by
    calc ((e.1 : Int) + e.2 - 2 * c.toNat) * (7 - cvg.toNat)
        ≤ (e.2 - c.toNat) * (7 - cvg.toNat) := Int.mul_le_mul_of_nonneg_right (by omega) hk0
      _ ≤ (e.2 - c.toNat) * 7 := Int.mul_le_mul_of_nonneg_left hk7 (by omega)
  have hdown : ((e.1 : Int) - c.toNat) * 7 ≤ ((e.1 : Int) + e.2 - 2 * c.toNat) * (7 - cvg.toNat) := by
    calc ((e.1 : Int) - c.toNat) * 7
        ≤ ((e.1 : Int) - c.toNat) * (7 - cvg.toNat) := Int.mul_le_mul_of_nonpos_left (by omega) hk7
      _ ≤ ((e.1 : Int) + e.2 - 2 * c.toNat) * (7 - cvg.toNat) := Int.mul_le_mul_of_nonneg_right (by omega) hk0
  have hvalue : ((blendChannel c cvg e).toNat : Int) =
      c.toNat + (((e.1 : Int) + e.2 - 2 * c.toNat) * (7 - cvg.toNat) + 4) / 8 := by
    rw [blendChannel, shiftRight_three_eq_div]
    exact ofInt_eight_toNat (by omega) (by omega)
  exact ⟨hvalue, by omega, by omega⟩

/-- The blend filter on a list of gathered colours, one channel at a time. -/
theorem blendWith_channel (P : Params) (s : Sample) (gathered : List Colour) (ch : Channel) {near : List Nat}
    (hnear : (gathered.map fun c => (colourChannel c ch).toNat) = near) :
    let e := extrema P ((sampleChannel s ch).toNat :: near)
    let out := (sampleChannel (blendWith P s gathered) ch).toNat
    (out : Int) = (sampleChannel s ch).toNat +
        (((e.1 : Int) + e.2 - 2 * (sampleChannel s ch).toNat) * (7 - s.cvg.toNat) + 4) / 8 ∧
      e.1 ≤ out ∧ out ≤ e.2 := by
  subst hnear
  obtain ⟨-, hmem, hle, hge⟩ := extrema_bracket P (sampleChannel s ch).toNat
    (gathered.map fun c => (colourChannel c ch).toNat)
  have hlt : (extrema P ((sampleChannel s ch).toNat :: gathered.map fun c => (colourChannel c ch).toNat)).2 < 256 := by
    rcases List.mem_cons.mp hmem with e | hm
    · rw [e]; exact (sampleChannel s ch).isLt
    · obtain ⟨c, -, hc⟩ := List.mem_map.mp hm
      rw [← hc]; exact (colourChannel c ch).isLt
  simp only [blendWith, sampleChannel_sampleOf, List.map_cons, colourChannel_sampleColour]
  exact blendChannel_bracket hle hge hlt

/-- Settles O11: both widths of the blend filter, on the fully covered of the six positions. -/
theorem blendMovesBetweenExtrema : Obligations.BlendMovesBetweenExtrema := by
  intro s slot line hfatal
  dsimp only [exec]
  refine ⟨_, _, blockOperation_clear _ hfatal, blockOperation_clear _ hfatal, rfl, rfl, fun ch => ?_⟩
  obtain ⟨h1, h2, h3⟩ := blendWith_channel s.params s.latch.fetched
    (((blendPositions s.frame.w s.latch.fetchedIdx (lineFetchState s.latch line)).filter
      (full16 s.params s.memory)).map fun n => decode5551 (read16 s.params s.memory n)) ch rfl
  obtain ⟨h4, h5, h6⟩ := blendWith_channel s.params s.latch.fetched
    (((blendPositions s.frame.w s.latch.fetchedIdx (lineFetchState s.latch line)).filter
      (full32 s.params s.memory)).map fun n => decode8888 (read32 s.params s.memory n)) ch rfl
  simp only [List.map_map, Function.comp_def, decode5551_channel, decode8888_channel, lineFetchState_eq,
    funext (full16_eq s.params s.memory), funext (full32_eq s.params s.memory)] at h1 h2 h3 h4 h5 h6
  simp only [blend16, blend32, lineFetchState_eq, funext (full16_eq s.params s.memory),
    funext (full32_eq s.params s.memory)]
  exact ⟨h1, h2, h3, h4, h5, h6⟩

end Sys2Proof.Machine
end

section
/-! PROOFS. The divot, the interpolation, the gamma tables and the dither. -/

namespace Sys2Proof.Machine

/-! ### The divot -/

/-- The test of R291: the three coverages are full. -/
theorem cvg_and_eq_seven_iff : ∀ c l r : BitVec 3, c &&& l &&& r = 7 ↔ c = 7 ∧ l = 7 ∧ r = 7 := by decide

/-- One channel of the divot is the median of the three. -/
theorem divotChannel_toNat (c l r : Byte) :
    (divotChannel c l r).toNat = max (min l.toNat c.toNat) (min (max l.toNat c.toNat) r.toNat) := by
  simp only [divotChannel, ge_iff_le, BitVec.le_def]
  split
  next => omega
  next =>
    split
    next => omega
    next => omega

/-- Settles O13: the covered centre, or the median of each channel. -/
theorem divotIsTheMedian : Obligations.DivotIsTheMedian := by
  intro s corner hfatal
  dsimp only [exec]
  refine ⟨_, blockOperation_clear _ hfatal, ?_⟩
  simp only [divot, cvg_and_eq_seven_iff]
  split
  next hfull => exact ⟨rfl, fun _ => rfl, fun hnot => absurd hfull hnot⟩
  next hnot =>
    refine ⟨rfl, fun hfull => absurd hfull hnot, fun _ ch => ?_⟩
    rw [sampleChannel_sampleOf, divotChannel_toNat]

/-- Settles O14: each of the four is its latch write, or nothing. -/
theorem passingOperationsCopy : Obligations.PassingOperationsCopy := by
  intro s hfatal
  dsimp only [exec]
  exact ⟨fun _ => blockOperation_clear _ hfatal, fun _ => blockOperation_clear _ hfatal, blockOperation_clear _ hfatal,
    blockOperation_clear _ hfatal⟩

/-! ### The interpolation -/

/-- The move of one interpolation stays between its inputs, so that the byte mask never acts (R300). -/
theorem lerp_between (base other : Byte) {f : Int} (h0 : 0 ≤ f) (h1 : f < 32) :
    ((lerp base other f).toNat : Int) = base.toNat + (((other.toNat : Int) - base.toNat) * f + 16) / 32 ∧
      min base.toNat other.toNat ≤ (lerp base other f).toNat ∧
      (lerp base other f).toNat ≤ max base.toNat other.toNat := by
  have hb := base.isLt
  have ho := other.isLt
  have hmove : min 0 ((other.toNat : Int) - base.toNat) ≤ (((other.toNat : Int) - base.toNat) * f + 16) / 32 ∧
      (((other.toNat : Int) - base.toNat) * f + 16) / 32 ≤ max 0 ((other.toNat : Int) - base.toNat) := by
    rcases le_total 0 ((other.toNat : Int) - base.toNat) with hd | hd
    · have hlow := Int.mul_nonneg hd h0
      have hhigh := Int.mul_le_mul_of_nonneg_left (show f ≤ 31 by omega) hd
      omega
    · have hlow := Int.mul_le_mul_of_nonpos_left hd (show f ≤ 31 by omega)
      have hhigh := Int.mul_nonpos_of_nonpos_of_nonneg hd h0
      omega
  have hvalue : ((lerp base other f).toNat : Int) =
      base.toNat + (((other.toNat : Int) - base.toNat) * f + 16) / 32 := by
    rw [lerp, shiftRight_five_eq_div]
    exact ofInt_eight_toNat (by omega) (by omega)
  exact ⟨hvalue, by omega, by omega⟩

/-- Settles O15: the bounds of the move, and a move of nothing for fraction 0. -/
theorem lerpStaysBetweenItsInputs : Obligations.LerpStaysBetweenItsInputs := by
  intro base other f h0 h1
  obtain ⟨hvalue, hlow, hhigh⟩ := lerp_between base other h0 h1
  refine ⟨hvalue, hlow, hhigh, BitVec.eq_of_toNat_eq ?_⟩
  have hzero := (lerp_between base other le_rfl (by decide : (0 : Int) < 32)).1
  omega

/-- Settles O16: the two orders of `LERP_ORDER`. -/
theorem lerpOperationBlendsTheCorners : Obligations.LerpOperationBlendsTheCorners := by
  intro s hfatal
  dsimp only [exec]
  refine (blockOperation_clear _ hfatal).trans ?_
  rw [xfrac_eq, yfrac_eq]
  cases horder : s.params.lerpOrder <;>
    simp only [putColour, bilerp, bilerpChannel, horder, sampleOf, sampleColour, reduceCtorEq, ↓reduceIte]

/-! ### The gamma tables -/

/-- One digit of the root: from the root of a quarter to the root. -/
theorem sqrtDigit_spec {n q : Nat} (h1 : q * q ≤ n / 4) (h2 : n / 4 < (q + 1) * (q + 1)) :
    sqrtDigit n (2 * q) * sqrtDigit n (2 * q) ≤ n ∧ n < (sqrtDigit n (2 * q) + 1) * (sqrtDigit n (2 * q) + 1) := by
  have hsquare : 2 * q * (2 * q) = 4 * (q * q) := by ring
  have hnext : (2 * q + 1 + 1) * (2 * q + 1 + 1) = 4 * ((q + 1) * (q + 1)) := by ring
  unfold sqrtDigit
  split
  next hdigit => exact ⟨hdigit, by omega⟩
  next hdigit => exact ⟨by omega, by omega⟩

/-- With enough digits the root is the floor of the square root. -/
theorem sqrtDigits_spec (k : Nat) : ∀ n < 4 ^ k,
    sqrtDigits k n * sqrtDigits k n ≤ n ∧ n < (sqrtDigits k n + 1) * (sqrtDigits k n + 1) := by
  induction k with
  | zero => intro n hn; simp at hn; simp [hn, sqrtDigits]
  | succ k ih =>
    intro n hn
    obtain ⟨h1, h2⟩ := ih (n / 4) (by rw [pow_succ] at hn; omega)
    exact sqrtDigit_spec h1 h2

/-- The digits of `isqrt` are enough. -/
theorem lt_four_pow_log2 (n : Nat) : n < 4 ^ (n.log2 / 2 + 1) := by
  calc n < 2 ^ (n.log2 + 1) := Nat.lt_log2_self
    _ ≤ 2 ^ (2 * (n.log2 / 2 + 1)) := Nat.pow_le_pow_right (by decide) (by omega)
    _ = 4 ^ (n.log2 / 2 + 1) := by rw [Nat.pow_mul]

/-- The model's root is the library's. -/
theorem isqrt_eq_sqrt (n : Nat) : isqrt n = n.sqrt :=
  Nat.eq_sqrt.mpr (sqrtDigits_spec _ n (lt_four_pow_log2 n))

/-- Twice the root of a number of 14 bits is a byte. -/
theorem two_mul_isqrt_lt {n : Nat} (h : n < 2 ^ 14) : 2 * isqrt n < 256 := by
  have : n.sqrt < 128 := Nat.sqrt_lt.mpr (by omega)
  rw [isqrt_eq_sqrt]; omega

theorem gammaTable_toNat (v : Byte) : (gammaTable v).toNat = 2 * isqrt (v.toNat * 64) := by
  have hv := v.isLt
  have := two_mul_isqrt_lt (n := v.toNat * 64) (by omega)
  rw [gammaTable, Nat.shiftLeft_eq, Nat.shiftLeft_eq, BitVec.toNat_ofNat, show (2 : Nat) ^ 6 = 64 from rfl]
  omega

theorem gammaDitherTable_toNat (i : BitVec 14) : (gammaDitherTable i).toNat = 2 * isqrt i.toNat := by
  have := two_mul_isqrt_lt i.isLt
  rw [gammaDitherTable, Nat.shiftLeft_eq, BitVec.toNat_ofNat]
  omega

/-- The index of a channel and 6 dither bits, as arithmetic. -/
theorem append_six_toNat (v : Byte) (d : BitVec 6) : (v ++ d).toNat = v.toNat * 64 + d.toNat := toNat_append_eq v d

/-- Settles O17: the root by its digits, the tables from it, and their order from the order of roots. -/
theorem gammaTablesAreTwiceARoot : Obligations.GammaTablesAreTwiceARoot := by
  have hroot (m n : Nat) (h : m * m ≤ n ∧ n < (m + 1) * (m + 1)) : isqrt n = m := by
    rw [isqrt_eq_sqrt]; exact (Nat.eq_sqrt.mpr h).symm
  have hmono {m n : Nat} (h : m ≤ n) : isqrt m ≤ isqrt n := by
    rw [isqrt_eq_sqrt, isqrt_eq_sqrt]; exact Nat.sqrt_le_sqrt h
  refine ⟨fun n => sqrtDigits_spec _ n (lt_four_pow_log2 n), gammaTable_toNat, gammaDitherTable_toNat, ?_, ?_, ?_, ?_,
    fun v => ?_, fun v w h => ?_, fun i j h => ?_⟩
  · exact BitVec.eq_of_toNat_eq ((gammaTable_toNat 0).trans (by rw [hroot 0 _ (by decide)]; rfl))
  · exact BitVec.eq_of_toNat_eq ((gammaTable_toNat 255).trans (by rw [hroot 127 _ (by decide)]; rfl))
  · exact BitVec.eq_of_toNat_eq ((gammaDitherTable_toNat 0).trans (by rw [hroot 0 _ (by decide)]; rfl))
  · exact BitVec.eq_of_toNat_eq ((gammaDitherTable_toNat 16383).trans (by rw [hroot 127 _ (by decide)]; rfl))
  · apply BitVec.eq_of_toNat_eq
    rw [gammaDitherTable_toNat, gammaTable_toNat, append_six_toNat]
    rfl
  · have := hmono (Nat.mul_le_mul_right 64 (BitVec.le_def.mp h))
    rw [BitVec.le_def, gammaTable_toNat, gammaTable_toNat]; omega
  · have := hmono (BitVec.le_def.mp h)
    rw [BitVec.le_def, gammaDitherTable_toNat, gammaDitherTable_toNat]; omega

/-! ### The dither -/

/-- One dither bit added to a channel below 255, as arithmetic. -/
theorem ditherChannel_eq (c : Byte) (d : BitVec 1) :
    ditherChannel c d = if c.toNat < 255 then BitVec.ofNat 8 (c.toNat + d.toNat) else c := by
  have hd := d.isLt
  unfold ditherChannel
  split
  next =>
    apply BitVec.eq_of_toNat_eq
    rw [BitVec.toNat_add, BitVec.toNat_setWidth, BitVec.toNat_ofNat]
    omega
  next => rfl

/-- The gamma lookup with 6 dither bits, as arithmetic. -/
theorem gammaDitherChannel_eq (c : Byte) (d : BitVec 6) :
    gammaDitherChannel c d = gammaDitherTable (BitVec.ofNat 14 (c.toNat * 64 + d.toNat)) := by
  rw [gammaDitherChannel, ← append_six_toNat, BitVec.ofNat_toNat, BitVec.setWidth_eq]

/-- Without an LCG the draws dither a pixel and the seed stays. -/
theorem finishPixel_draw {P : Params} (h : P.ditherSource = .draw) (mode : GdMode) (draws y i : Nat) (seed : Word)
    (c : Colour) : finishPixel P mode draws y i seed c =
      (gammaDither mode (Config.dither1 draws y i) (Config.dither6 draws y i) c, seed) := by
  simp only [finishPixel, seedAfterPixel, h, funext fun ch => show dither1 P draws y i seed ch = _ by rw [dither1, h],
    funext fun ch => show dither6 P draws y i seed ch = _ by rw [dither6, h]]

/-- With an LCG a dithering mode advances the seed and takes its bits from the new one. -/
theorem finishPixel_lcg {P : Params} (h : P.ditherSource = .lcg) {mode : GdMode} (hmode : modeDithers mode = true)
    (draws y i : Nat) (seed : Word) (c : Colour) : finishPixel P mode draws y i seed c =
      (gammaDither mode (lcgDither1 (lcgRandom (lcgAdvance seed))) (lcgDither6 (lcgRandom (lcgAdvance seed))) c,
        lcgAdvance seed) := by
  have h1 : dither1 P draws y i (lcgAdvance seed) = lcgDither1 (lcgRandom (lcgAdvance seed)) := by
    funext ch; rw [dither1, h]
  have h6 : dither6 P draws y i (lcgAdvance seed) = lcgDither6 (lcgRandom (lcgAdvance seed)) := by
    funext ch; rw [dither6, h]
  simp only [finishPixel, seedAfterPixel, h, hmode, if_true, h1, h6]

/-- The stage on a pixel that is not clipped. -/
theorem gammaDitherStage_unclipped {s : State} (hclip : s.latch.clipped = false) (mode : GdMode) {c : Colour} {seed : Word}
    (h : finishPixel s.params mode s.draws s.scan.y s.scan.i (getWorker s.params s.workers (currentWorker s)).seed
      s.latch.colour = (c, seed)) :
    gammaDitherStage mode s = (s.withLatch { s.latch with colour := c }).withWorkers
      (putWorker s.params (currentWorker s)
        ⟨seed, (getWorker s.params s.workers (currentWorker s)).caches⟩ s.workers) := by
  rcases gammaDitherStage_cases mode s with ⟨hyes, -⟩ | ⟨-, e⟩
  · rw [hclip] at hyes; cases hyes
  · rw [e, h]

/-- The stage on a clipped pixel does nothing. -/
theorem gammaDitherStage_clipped {s : State} (hclip : s.latch.clipped = true) (mode : GdMode) :
    gammaDitherStage mode s = s := by
  rcases gammaDitherStage_cases mode s with ⟨-, e⟩ | ⟨hno, -⟩
  · exact e
  · rw [hclip] at hno; cases hno

/-- The workers of a well-formed state are well-formed. -/
theorem workersWf_of_wf {s : State} (h : s.wf = true) : workersWf s.params s.workers = true := by
  obtain ⟨-, -, -, hworkers⟩ := State.wf_iff.mp h
  exact hworkers

/-- Settles O18: the lookup, the clipped pixel, and the two dithering modes under the draws. -/
theorem gammaAndDitherUnderDraw : Obligations.GammaAndDitherUnderDraw := by
  intro s hfatal
  dsimp only [exec]
  refine ⟨blockOperation_clear _ hfatal, fun hclip => ?_, fun hclip hdraw hwf => ?_⟩
  · exact ⟨(blockOperation_clear _ hfatal).trans (congrArg _ (gammaDitherStage_clipped hclip _)),
      (blockOperation_clear _ hfatal).trans (congrArg _ (gammaDitherStage_clipped hclip _))⟩
  · refine ⟨putWorker s.params (currentWorker s) (getWorker s.params s.workers (currentWorker s)) s.workers, fun j => ?_,
      (blockOperation_clear _ hfatal).trans (congrArg _ ?_), (blockOperation_clear _ hfatal).trans (congrArg _ ?_)⟩
    · rw [getWorker_putWorker (workersWf_of_wf hwf)]
      split
      next hj => rw [hj]
      next => rfl
    · rw [gammaDitherStage_unclipped hclip _ (finishPixel_draw hdraw ..)]
      simp only [gammaDither, colourOf, ditherChannel_eq, colourChannel]
    · rw [gammaDitherStage_unclipped hclip _ (finishPixel_draw hdraw ..)]
      simp only [gammaDither, colourOf, gammaDitherChannel_eq, colourChannel]

/-- One advance of the seed, as arithmetic (R317). -/
theorem lcgAdvance_eq (seed : Word) : lcgAdvance seed = BitVec.ofNat 32 (seed.toNat * 0x343FD + 0x269EC3) := by
  rw [BitVec.ofNat_add, BitVec.ofNat_mul, BitVec.ofNat_toNat, BitVec.setWidth_eq]
  rfl

theorem lcgRandom_eq (seed : Word) : lcgRandom seed = (seed.toNat >>> 16) % 2 ^ 15 := by
  rw [lcgRandom, field_eq_div_mod, Nat.shiftRight_eq_div_pow]

/-- The blue dither bits of mode 3 are six. -/
theorem blueBits_lt (rnd : Nat) : ((rnd >>> 9) &&& 0x38) ||| (rnd &&& 7) < 64 :=
  Nat.or_lt_two_pow (n := 6) (Nat.and_lt_two_pow _ (by decide)) (Nat.and_lt_two_pow _ (by decide))

/-- Settles O19: the advance of the owner's seed and the bits of the new one. -/
theorem ditherUnderLcgAdvancesTheSeed : Obligations.DitherUnderLcgAdvancesTheSeed := by
  intro s hfatal hclip hlcg hwf
  dsimp only [exec]
  rw [← lcgAdvance_eq, ← lcgRandom_eq]
  have howner : s.scan.y % (if s.sampled.numWorkers = 0 then max 1 s.params.hwThreads else s.sampled.numWorkers) =
      currentWorker s := rfl
  rw [howner]
  refine ⟨_, fun j => getWorker_putWorker (workersWf_of_wf hwf) _ j _, (blockOperation_clear _ hfatal).trans (congrArg _ ?_),
    (blockOperation_clear _ hfatal).trans (congrArg _ ?_)⟩
  · rw [gammaDitherStage_unclipped hclip _ (finishPixel_lcg hlcg rfl ..)]
    simp only [gammaDither, colourOf, ditherChannel_eq, colourChannel, lcgDither1, BitVec.toNat_ofNat, pow_one]
  · rw [gammaDitherStage_unclipped hclip _ (finishPixel_lcg hlcg rfl ..)]
    simp only [gammaDither, colourOf, gammaDitherChannel_eq, colourChannel, lcgDither6, BitVec.toNat_ofNat,
      Nat.mod_eq_of_lt (blueBits_lt _), Nat.reducePow]

end Sys2Proof.Machine
end

section
/-! PROOFS. The parts of `begin_frame` asked for alone: the two scan operations and the blank format. -/

namespace Sys2Proof.Machine

/-! ### The scan operations -/

/-- The sequencer of a frame that is not interlaced forgets the interlace alone. -/
theorem sequenceFields_false (C : FrameConfig) (p : PipelineState) :
    sequenceFields false C p = { p with prevSerrate := false } := rfl

/-- The dropped scanlines are those of a frame with active pixels whose row lies beyond the buffer (R201, R202). -/
theorem droppedCount_eq (P : Params) (C : FrameConfig) :
    droppedCount P C =
      if C.isBlank = false ∧ C.validh = true then
        ((List.range C.vres.toNat).filter fun y => decide ((P.maxH : Int) ≤ outRow C y)).length
      else 0 := by
  have hdropped (y : Nat) : (!rowKept P C y) = decide ((P.maxH : Int) ≤ outRow C y) := by
    rw [rowKept, ← decide_not, decide_eq_decide, not_lt]
  rw [droppedCount, frameScanlines, funext hdropped, bind_pure_comp, List.map_eq_map, List.filter_map, List.length_map]
  cases C.isBlank <;> cases C.validh <;> rfl

/-- The active-line count before its tests, with the offset of the standard (R183, R197). -/
theorem activeCount_eq (P : Params) (C : FrameConfig) :
    activeCount P C = C.vSync - (if C.isPal then (P.vOffsetPal : Int) else P.vOffsetNtsc) := by
  rw [activeCount, verticalOffset, Nat.cast_ite]

/-- Settles O25: the sequencer in closed form, with a fixed scan bit. -/
theorem scanOperationsSequenceTheField : Obligations.ScanOperationsSequenceTheField := by
  intro s hfatal hrender hpresent
  dsimp only [exec]
  refine ⟨(setupOperation_clear _ hfatal hrender hpresent).trans ?_, _, setupOperation_clear _ hfatal hrender hpresent, ?_⟩
  · rw [applyScan_eq, Bool.and_false, sequenceFields_false, activeCount_eq]
    rfl
  · rw [warnDropped, applyScan_eq, Bool.and_true, activeCount_eq]
    refine ⟨?_, fun hvalid => ?_, fun hvalid => ⟨?_, ?_⟩, ?_, rfl⟩
    · rfl
    · simp only [hvalid, sequenceFields_false]
      rfl
    · simp only [hvalid]
      simp only [warnTimes_pipe, State.withPipe_pipe, sequenceFields, selectField_eq, if_true]
    · simp only [hvalid, warnTimes_pipe, State.withPipe_pipe, sequenceFields, inferParity, true_and]
    · rw [droppedCount_eq]
      rfl

/-! ### The blank format -/

/-- `FMT_BLANK` reads `TV_FADE` and the blank mark only, not whether `Out` is handed over. -/
theorem blankSkips_iff (s : State) :
    blankSkips s = true ↔ s.sampled.tvFade = false ∧ s.pipe.prevWasBlank = true := by
  simp [blankSkips]

/-- A produced blank frame with TV fade decays every row once (R208, R214). -/
theorem blankFrame_fading {s : State} (h : s.sampled.tvFade = true) :
    blankFrame s = (s.withOut (clearOut s.params (fun row _ => decayClears s.pipe.fade row) s.out)).withPipe
      { s.pipe with fade := fadeTable s.params (decayed s.pipe.fade), prevWasBlank := true } := if_pos h

/-- A produced blank frame without TV fade clears everything (R207). -/
theorem blankFrame_clearing {s : State} (h : s.sampled.tvFade = false) :
    blankFrame s = (s.withOut []).withPipe { s.pipe with fade := [], prevWasBlank := true } := by
  rw [blankFrame, h]; rfl

/-- What the decay of every row leaves of one row (R214). -/
theorem decay_row {P : Params} {o : List (Nat × Word)} (h : outWf P o = true) (t : List (Nat × Nat)) {row : Nat}
    (hrow : row < P.maxH) :
    readFade (fadeTable P (decayed t)) row = readFade t row - 1 ∧
      ∀ col : Nat, col < P.maxW → readOut P (clearOut P (fun row _ => decayClears t row) o) row col =
        if readFade t row = 1 then 0 else readOut P o row col := by
  refine ⟨readFade_fadeTable P _ hrow, fun col hcol => ?_⟩
  rw [readOut_clearOut h _ hrow hcol]
  simp only [decayClears, decide_eq_true_eq]

/-- Settles O26: Skip S2, or the blank frame with and without TV fade. -/
theorem blankFormatSkipsClearsOrDecays : Obligations.BlankFormatSkipsClearsOrDecays := by
  intro s hfatal hrender hpresent hwf
  obtain ⟨-, hout, -, -⟩ := State.wf_iff.mp hwf
  have hexec : exec .fmtBlank s =
      .next (if blankSkips s then skip .s2 (s.withHandedOver false) else blankFrame (s.withHandedOver false)) := by
    dsimp only [exec]
    exact (setupOperation_clear _ hfatal hrender hpresent).trans rfl
  rw [hexec]
  refine ⟨fun hfade hprev => ?_, fun hnot => ?_⟩
  · rw [if_pos ((blankSkips_iff s).mpr ⟨hfade, hprev⟩)]
    rfl
  · have hproduced : ¬blankSkips s = true := by
      rw [blankSkips_iff]
      rintro ⟨hfade, hprev⟩
      rcases hnot with h | h
      · rw [hfade] at h; cases h
      · rw [hprev] at h; cases h
    rw [if_neg hproduced]
    cases hfade : s.sampled.tvFade
    · refine ⟨_, _, congrArg _ (blankFrame_clearing hfade), fun _ => ⟨readOut_nil _, readFade_nil⟩,
        fun h => nomatch h⟩
    · exact ⟨_, _, congrArg _ (blankFrame_fading hfade), ⟨fun h => Bool.noConfusion h,
        fun _ row hrow => decay_row hout _ hrow⟩⟩

end Sys2Proof.Machine
end

section
/-! PROOFS. What a normal `begin_frame` answers, and what a fast one does. -/

namespace Sys2Proof.Machine

/-! ### The picture before the frame -/

/-- The buffer, the fades, the blank mark and the latched mode are the same in `t` as in `s`. -/
structure KeepsPicture (s t : State) : Prop where
  out : t.out = s.out
  fade : t.pipe.fade = s.pipe.fade
  prevWasBlank : t.pipe.prevWasBlank = s.pipe.prevWasBlank
  modeLatched : t.pipe.modeLatched = s.pipe.modeLatched

theorem KeepsPicture.trans {s t u : State} (h : KeepsPicture s t) (h' : KeepsPicture t u) : KeepsPicture s u :=
  ⟨h'.1.trans h.1, h'.2.trans h.2, h'.3.trans h.3, h'.4.trans h.4⟩

theorem withFrame_keepsPicture (s : State) (C : FrameConfig) : KeepsPicture s (s.withFrame C) := ⟨rfl, rfl, rfl, rfl⟩

theorem sequenceInterlace_keepsPicture (s : State) : KeepsPicture s (sequenceInterlace s) := ⟨rfl, rfl, rfl, rfl⟩

theorem clampWidth_keepsPicture (s : State) : KeepsPicture s (clampWidth s) := by
  unfold clampWidth; split <;> exact ⟨rfl, rfl, rfl, rfl⟩

theorem clampHeight_keepsPicture (s : State) : KeepsPicture s (clampHeight s) := by
  unfold clampHeight; split <;> exact ⟨rfl, rfl, rfl, rfl⟩

theorem warnDropped_keepsPicture (s : State) : KeepsPicture s (warnDropped s) := ⟨rfl, rfl, rfl, rfl⟩

theorem resolveGeometry_keepsPicture (s : State) : KeepsPicture s (resolveGeometry s) :=
  (withFrame_keepsPicture s _).trans ((sequenceInterlace_keepsPicture _).trans
    ((withFrame_keepsPicture _ _).trans ((clampWidth_keepsPicture _).trans (clampHeight_keepsPicture _))))

theorem placeFrame_keepsPicture (s : State) : KeepsPicture s (placeFrame s) :=
  (withFrame_keepsPicture s _).trans ((warnDropped_keepsPicture _).trans (withFrame_keepsPicture _ _))

/-- Up to the latch the picture is as before, or cleared when the display mode has changed (R181). -/
theorem captured_picture (s : State) :
    (captured s).out = (if s.pipe.modeLatched = s.config.displayMode then s.out else []) ∧
      (captured s).pipe = if s.pipe.modeLatched = s.config.displayMode then s.pipe
        else { s.pipe with fade := [], modeLatched := s.config.displayMode } := by
  have hdecode : (captureAndDecode (startFrameStep s)).pipe = s.pipe ∧ (captureAndDecode (startFrameStep s)).out = s.out ∧
      (captureAndDecode (startFrameStep s)).sampled = s.config := by
    simp only [captureAndDecode, warnReserved]
    split <;> simp [startFrameStep, captureRegs]
  obtain ⟨hpipe, hout, hsampled⟩ := hdecode
  rw [captured, latchMode, hpipe, hsampled]
  split
  next => exact ⟨hout, hpipe⟩
  next => exact ⟨rfl, rfl⟩

theorem captured_modeLatched (s : State) : (captured s).pipe.modeLatched = s.config.displayMode := by
  obtain ⟨-, hpipe⟩ := captured_picture s
  rw [hpipe]
  split
  next hsame => exact hsame
  next => rfl

/-! ### A frame that is placed -/

/-- The state of a normal `begin_frame` whose active-line count is in range, before the blanking rules. -/
def placed (s : State) : State := placeFrame (resolveGeometry (captured s))

theorem placed_keeps (s : State) : KeepsInputs s (placed s) :=
  (captured_keeps s).trans ((resolveGeometry_keeps _).trans (placeFrame_keeps _))

theorem placed_control (s : State) : KeepsControl (startFrameStep s) (placed s) :=
  (captured_keepsControl s).trans ((resolveGeometry_keepsControl _).trans (placeFrame_keepsControl _))

theorem placed_sampled (s : State) : (placed s).sampled = s.config := (placed_control s).sampled

theorem placed_keepsPicture (s : State) : KeepsPicture (captured s) (placed s) :=
  (resolveGeometry_keepsPicture _).trans (placeFrame_keepsPicture _)

theorem placed_wf {s : State} (h : s.wf = true) : (placed s).wf = true := by
  rw [placed, placeFrame_wf, resolveGeometry_wf]
  exact captured_wf h

/-- The configuration after the geometry, on the decoded slots. -/
theorem capturedGeometry_frame (s : State) :
    (resolveGeometry (captured s)).frame = (decodeRegs s.params s.slots).withGeometry s.params
      (validInterlaceOf s.slots (decodeRegs s.params s.slots)) := by
  obtain ⟨-, hreg, hdecode, -⟩ := captured_samples s
  rw [resolveGeometry_frame, (captured_keeps s).params, hreg, hdecode]

/-- The geometry keeps the active-line count. -/
theorem activeCount_withGeometry (P : Params) (C : FrameConfig) (valid : Bool) :
    activeCount P (C.withGeometry P valid) = activeCount P (resolveStandard P C) := rfl

/-- How a normal `begin_frame` ends: F1, S1, or the blanking rules on the placed frame (R197, R198). -/
theorem beginFrame_normal_cases {s : State} (hnormal : s.config.displayMode = .normal) :
    ((s.params.maxH : Int) < activeCount s.params (resolveStandard s.params (decodeRegs s.params s.slots)) ∧
        beginFrame s = raiseFatal .f1 (resolveGeometry (captured s))) ∨
      (activeCount s.params (resolveStandard s.params (decodeRegs s.params s.slots)) ≤ s.params.maxH ∧
        activeCount s.params (resolveStandard s.params (decodeRegs s.params s.slots)) < 0 ∧
        beginFrame s = skip .s1 (resolveGeometry (captured s))) ∨
      (activeCount s.params (resolveStandard s.params (decodeRegs s.params s.slots)) ≤ s.params.maxH ∧
        0 ≤ activeCount s.params (resolveStandard s.params (decodeRegs s.params s.slots)) ∧
        beginFrame s = finishBegin (placed s)) := by
  have hcases := normalBegin_cases (captured s)
  rw [(captured_keeps s).params, capturedGeometry_frame, activeCount_withGeometry] at hcases
  rw [beginFrame_eq, if_pos hnormal]
  exact hcases

/-- The configuration of a placed frame (R199 to R203), from that of the geometry. -/
theorem placed_frame (s : State) :
    (placed s).frame =
      { (resolveGeometry (captured s)).frame with
        vactive := if (decodeRegs s.params s.slots).serrate
          then activeCount s.params (resolveStandard s.params (decodeRegs s.params s.slots))
          else activeCount s.params (resolveStandard s.params (decodeRegs s.params s.slots)) / 2
        validh := decide (0 < (resolveGeometry (captured s)).frame.hres) &&
          decide (0 < (resolveGeometry (captured s)).frame.vres) &&
          decide ((resolveGeometry (captured s)).frame.hStart < s.params.maxW)
        field := (decodeRegs s.params s.slots).serrate && (placed s).pipe.lowerField
        marginLo := if (resolveGeometry (captured s)).frame.hStartClamped then 0 else s.params.hblankMarginL
        marginHi := if (resolveGeometry (captured s)).frame.hresClamped then (resolveGeometry (captured s)).frame.hres
          else (resolveGeometry (captured s)).frame.hres - s.params.hblankMarginR } := by
  have hfield : (placed s).pipe.lowerField = (resolveGeometry (captured s)).pipe.lowerField := by
    have := (placeFrame_keepsGeometry (resolveGeometry (captured s))).pipe
    rw [placed, this]
    rfl
  have hparams : (resolveGeometry (captured s)).params = s.params :=
    (resolveGeometry_keeps _).params.trans (captured_keeps s).params
  have hserrate : (resolveGeometry (captured s)).frame.serrate = (decodeRegs s.params s.slots).serrate := by
    rw [capturedGeometry_frame]; rfl
  have hactive : activeCount s.params (resolveGeometry (captured s)).frame =
      activeCount s.params (resolveStandard s.params (decodeRegs s.params s.slots)) := by
    rw [capturedGeometry_frame, activeCount_withGeometry]
  rw [hfield, placed, placeFrame_frame, hparams, hserrate, hactive]

/-- A placed frame ends in Skip S2 when it is blank, without TV fade, after a blank frame (R207). -/
theorem blankSkips_placed (s : State) :
    blankSkips (placed s) = true ↔ s.config.tvFade = false ∧ s.pipe.prevWasBlank = true := by
  obtain ⟨-, hpipe⟩ := captured_picture s
  rw [blankSkips_iff, placed_sampled, (placed_keepsPicture s).prevWasBlank, hpipe]
  split <;> rfl

/-- The blank mark of the frame is that of its format. -/
theorem placed_isBlank (s : State) : (placed s).frame.isBlank = (decodeRegs s.params s.slots).isBlank := by
  rw [placed_frame, capturedGeometry_frame]; rfl

/-- What the blanking rules set of `S` besides the fades (R207 to R209). -/
theorem blanking_pipe (s : State) :
    (blankFrame s).pipe = { s.pipe with fade := (blankFrame s).pipe.fade, prevWasBlank := true } ∧
      (activeFrame s).pipe = { s.pipe with fade := (activeFrame s).pipe.fade, prevWasBlank := false } := by
  refine ⟨?_, rfl⟩
  unfold blankFrame
  split <;> rfl

/-- A produced frame: its state when the render begins. -/
def produced (s : State) : State := if s.frame.isBlank then blankFrame s else activeFrame s

theorem produced_keeps (s : State) : KeepsControl s (produced s) := by
  unfold produced
  split
  · exact blankFrame_keepsControl s
  · exact activeFrame_keepsControl s

theorem produced_pipe (s : State) :
    (produced s).pipe = { s.pipe with fade := (produced s).pipe.fade, prevWasBlank := s.frame.isBlank } := by
  unfold produced
  cases h : s.frame.isBlank
  · exact (blanking_pipe s).2
  · exact (blanking_pipe s).1

/-- The blanking rules end in S2 or in the dispatch of the produced frame. -/
theorem finishBegin_eq (s : State) :
    finishBegin s = if s.frame.isBlank = true ∧ blankSkips s = true then skip .s2 s else dispatch (produced s) := by
  rcases finishBegin_cases s with ⟨hblank, hskip, e⟩ | ⟨hblank, hskip, e⟩ | ⟨hblank, e⟩ <;>
    simp [produced, *]

/-- Settles O30: a placed frame that is not skipped is dispatched. -/
theorem beginFrameProducesAFrame : Obligations.BeginFrameProducesAFrame := by
  intro s hfatal hidle hnormal C vact h0 hmax hnoskip
  have hfinish : beginFrame s = finishBegin (placed s) := by
    rcases beginFrame_normal_cases hnormal with ⟨hover, -⟩ | ⟨-, hneg, -⟩ | ⟨-, -, e⟩
    · exact absurd hover hmax.not_gt
    · exact absurd hneg h0.not_gt
    · exact e
  have hbegin : beginFrame s = dispatch (produced (placed s)) := by
    rw [hfinish, finishBegin_eq, if_neg]
    rintro ⟨hblank, hskip⟩
    obtain ⟨hfade, hprev⟩ := (blankSkips_placed s).mp hskip
    rw [placed_isBlank] at hblank
    rw [hnoskip hblank hfade] at hprev
    cases hprev
  have hcontrol := (placed_control s).trans (produced_keeps (placed s))
  have hframe : (beginFrame s).frame = (placed s).frame := by rw [hfinish, finishBegin_frame]
  have hpipe : (beginFrame s).pipe = (produced (placed s)).pipe := by rw [hbegin, dispatch_pipe]
  obtain ⟨hlow, hhigh⟩ := beginFrame_vactive s
  refine ⟨beginFrame s, phaseOperation_clear beginFrame hfatal hidle, ?_, ?_, (beginFrame_keeps s).presented,
    (beginFrame_keeps s).memory, ?_, hlow, hhigh, ?_, ?_, ?_, ?_, ?_, ?_⟩
  · rw [hbegin, dispatch_fatal, hcontrol.fatal]; exact hfatal
  · rw [hbegin, dispatch_scan, hcontrol.scan]; rfl
  · rw [hframe, placed_frame]; rfl
  · rw [hframe, placed_frame, Bool.decide_and, Bool.decide_and, Bool.and_assoc]
  · rw [hframe, hpipe, produced_pipe, placed_frame]; rfl
  · rw [hframe, placed_frame]
  · rw [hframe, placed_frame]
  · rw [hpipe, produced_pipe]; exact placed_isBlank s
  · rw [hpipe, produced_pipe]
    exact (placed_keepsPicture s).modeLatched.trans ((captured_modeLatched s).trans hnormal)

/-! ### Borders and fades -/

/-- A row of the buffer is written by a non-blank frame when a scanline with active pixels goes to it (R202). -/
theorem isWritten_iff {P : Params} {C : FrameConfig} (hblank : C.isBlank = false) {row : Nat} (hrow : row < P.maxH) :
    isWritten P C row = true ↔ ∃ y : Nat, C.validh = true ∧ (y : Int) < C.vres ∧ outRow C y = row := by
  simp only [isWritten, writtenRows, List.contains_iff_mem, bind_pure_comp, List.map_eq_map, List.map_map, List.mem_map,
    List.mem_filter, frameScanlines, hblank, Bool.false_or, rowKept, decide_eq_true_eq, Function.comp_apply]
  cases C.validh
  · simp
  · simp only [Bool.not_true, Bool.false_eq_true, if_false, List.mem_range, true_and]
    refine exists_congr fun y => ⟨fun ⟨⟨hy, _⟩, hout⟩ => ⟨by omega, hout⟩,
      fun ⟨hy, hout⟩ => ⟨⟨by omega, by omega⟩, hout⟩⟩

theorem inRegion_iff (C : FrameConfig) (row : Nat) :
    inRegion C row = true ↔ C.vStart * (if C.serrate then 2 else 1) ≤ (row : Int) ∧
      (row : Int) < (C.vStart + C.vres) * (if C.serrate then 2 else 1) := by
  rw [inRegion, Bool.and_eq_true, decide_eq_true_iff, decide_eq_true_iff]
  rfl

theorem inBorder_iff (C : FrameConfig) (row col : Nat) :
    inBorder C row col = true ↔ (row : Int) < C.vactive ∧
      ¬(C.hStart ≤ (col : Int) ∧ (col : Int) < C.hStart + max C.hres 0) := by
  simp only [inBorder, Bool.and_eq_true, decide_eq_true_eq, Bool.not_eq_true', ← Bool.not_eq_true]

theorem rowCleared_iff (P : Params) (C : FrameConfig) (tvFade : Bool) (t : List (Nat × Nat)) (row : Nat) :
    rowCleared P C tvFade t row = true ↔ ¬isWritten P C row = true ∧
      ((tvFade = true ∧ readFade t row = 1) ∨ (tvFade = false ∧ ¬inRegion C row = true)) := by
  cases tvFade <;> simp [rowCleared, decayClears]

/-- What a non-blank frame leaves of one row's counter (R213 to R215). -/
theorem fadeAfter_eq (P : Params) (C : FrameConfig) (tvFade : Bool) (t : List (Nat × Nat)) (row : Nat) :
    fadeAfter P C tvFade t row = if isWritten P C row = true then P.fadeFrames else if tvFade = true then readFade t row - 1
      else if inRegion C row = true then readFade t row else 0 := rfl

section
variable {s : State} {row : Nat}

/-- The buffer before the blanking rules, read at one position. -/
theorem readOut_placed (hnormal : s.config.displayMode = .normal) (row col : Int) :
    readOut s.params (placed s).out row col =
      if s.pipe.modeLatched = .normal then readOut s.params s.out row col else 0 := by
  obtain ⟨hout, -⟩ := captured_picture s
  rw [(placed_keepsPicture s).out, hout, hnormal]
  split
  · rfl
  · exact readOut_nil _ _ _

/-- The fades before the blanking rules, read at one row. -/
theorem readFade_placed (hnormal : s.config.displayMode = .normal) (row : Nat) :
    readFade (placed s).pipe.fade row = if s.pipe.modeLatched = .normal then readFade s.pipe.fade row else 0 := by
  obtain ⟨-, hpipe⟩ := captured_picture s
  rw [(placed_keepsPicture s).fade, hpipe, hnormal]
  split
  · rfl
  · rfl

end

/-- Settles O31: the rows of an active frame, of a decaying one, of a cleared one and of a skipped one. -/
theorem beginFrameClearsBordersAndFades : Obligations.BeginFrameClearsBordersAndFades := by
  intro s hfatal hidle hnormal hwf C vact h0 hmax
  have hfinish : beginFrame s = finishBegin (placed s) := by
    rcases beginFrame_normal_cases hnormal with ⟨hover, -⟩ | ⟨-, hneg, -⟩ | ⟨-, -, e⟩
    · exact absurd hover hmax.not_gt
    · exact absurd hneg h0.not_gt
    · exact e
  refine ⟨beginFrame s, phaseOperation_clear beginFrame hfatal hidle, fun row hrow => ?_⟩
  obtain ⟨-, hout, -, -⟩ := State.wf_iff.mp (placed_wf hwf)
  have hparams : (placed s).params = s.params := (placed_keeps s).params
  have hsampled := placed_sampled s
  have hblankMark := placed_isBlank s
  have hframe : (beginFrame s).frame = (placed s).frame := by rw [hfinish, finishBegin_frame]
  have hserrate : (placed s).frame.serrate = C.serrate := by rw [placed_frame, capturedGeometry_frame]; rfl
  have hreadOut := readOut_placed hnormal (s := s)
  have hreadFade := readFade_placed hnormal (s := s) row
  rw [hparams] at hout
  have hregion := inRegion_iff (placed s).frame row
  rw [hserrate] at hregion
  rw [hframe]
  intro kept fade before written region
  refine ⟨fun hactive => ?_, fun hblank hfade => ?_, fun hblank hfade hprev => ?_, fun hblank hfade hprev => ?_⟩
  · have hnotBlank : (placed s).frame.isBlank = false := hblankMark.trans hactive
    have hdispatch : beginFrame s = dispatch (activeFrame (placed s)) := by
      rw [hfinish, finishBegin_eq, produced, hnotBlank]; rfl
    have hwritten : isWritten s.params (placed s).frame row = true ↔ written := isWritten_iff hnotBlank hrow
    have hfadeRow : readFade (beginFrame s).pipe.fade row =
        fadeAfter s.params (placed s).frame s.config.tvFade (placed s).pipe.fade row := by
      rw [hdispatch, dispatch_pipe, ← hparams, ← hsampled]
      exact readFade_fadeTable _ _ (hparams ▸ hrow)
    have houtRow (col : Nat) (hcol : col < s.params.maxW) : readOut s.params (beginFrame s).out row col =
        if (inBorder (placed s).frame row col ||
          rowCleared s.params (placed s).frame s.config.tvFade (placed s).pipe.fade row) = true then 0
        else before col := by
      have hclear := readOut_clearOut hout (fun row col => inBorder (placed s).frame row col ||
        rowCleared s.params (placed s).frame s.config.tvFade (placed s).pipe.fade row) hrow hcol
      rw [hreadOut] at hclear
      rw [hdispatch, dispatch_out, activeFrame, hparams, hsampled]
      exact hclear
    rw [fadeAfter_eq, hreadFade] at hfadeRow
    refine ⟨fun h => ?_, fun h htv => ?_, fun h htv hin => ?_, fun h htv hin => ?_, fun col hcol => ?_⟩
    · rw [hfadeRow, if_pos (hwritten.mpr h)]
    · rw [hfadeRow, if_neg (hwritten.not.mpr h), if_pos htv]
    · rw [hfadeRow, if_neg (hwritten.not.mpr h), htv, if_neg (by decide), if_pos (hregion.mpr hin)]
    · rw [hfadeRow, if_neg (hwritten.not.mpr h), htv, if_neg (by decide), if_neg (hregion.not.mpr hin)]
    · intro border rowGone
      have hborder : inBorder (placed s).frame row col = true ↔ border := inBorder_iff _ _ _
      have hgone : rowCleared s.params (placed s).frame s.config.tvFade (placed s).pipe.fade row = true ↔ rowGone := by
        rw [rowCleared_iff, hwritten, hregion, hreadFade]
      have hcleared := (Bool.or_eq_true _ _).to_iff.trans (or_congr hborder hgone)
      rw [houtRow col hcol]
      exact ⟨fun h => if_pos (hcleared.mpr h), fun hb hg => if_neg (hcleared.not.mpr (not_or.mpr ⟨hb, hg⟩))⟩
  · have hproduced : beginFrame s = dispatch (blankFrame (placed s)) := by
      have hno : ¬blankSkips (placed s) = true := by rw [blankSkips_placed, hfade]; simp
      rw [hfinish, finishBegin_eq, if_neg (fun h => hno h.2), produced, if_pos (hblankMark.trans hblank)]
    rw [hproduced, dispatch_pipe, dispatch_out, blankFrame_fading (by rw [hsampled]; exact hfade), hparams]
    obtain ⟨hcount, hread⟩ := decay_row hout (placed s).pipe.fade hrow
    refine ⟨hcount.trans (by rw [hreadFade]), fun col hcol => (hread col hcol).trans (by rw [hreadFade, hreadOut])⟩
  · have hproduced : beginFrame s = dispatch (blankFrame (placed s)) := by
      have hno : ¬blankSkips (placed s) = true := by rw [blankSkips_placed, hprev]; simp
      rw [hfinish, finishBegin_eq, if_neg (fun h => hno h.2), produced, if_pos (hblankMark.trans hblank)]
    rw [hproduced, dispatch_pipe, dispatch_out, blankFrame_clearing (by rw [hsampled]; exact hfade)]
    exact ⟨rfl, fun col hcol => readOut_nil _ _ _⟩
  · have hskipped : beginFrame s = skip .s2 (placed s) := by
      rw [hfinish, finishBegin_eq, if_pos ⟨hblankMark.trans hblank, (blankSkips_placed s).mpr ⟨hfade, hprev⟩⟩]
    rw [hskipped, skip_pipe, skip_out]
    exact ⟨hreadFade, fun col hcol => hreadOut _ _⟩

end Sys2Proof.Machine
end

section
/-! PROOFS. The fast `begin_frame`, the warnings, the bounds of the geometry, and the pool at dispatch. -/

namespace Sys2Proof.Machine

/-! ### A fast begin_frame -/

/-- The width of a fast frame before its clamp (R380). -/
def fastWidth (C : FrameConfig) : Int := Int.tdiv (C.xAdd * ((C.heRaw : Int) - C.hsRaw)) 1024

/-- The height of a fast frame before its clamp (R380). -/
def fastHeight (C : FrameConfig) : Int := Int.tdiv (C.yAdd * (((C.veRaw : Int) - C.vsRaw) / 2)) 1024

theorem resolveFast_eq (C : FrameConfig) :
    resolveFast C = { C with hresRaw := fastWidth C, vresRaw := fastHeight C } := by
  rw [resolveFast, fastWidth, fastHeight, shiftRight_one_eq_div_two]

/-- The state of a fast `begin_frame` once its size is resolved, on the decoded slots. -/
def sized (s : State) : State := (captured s).withFrame (resolveFast (decodeRegs s.params s.slots))

theorem sized_frame (s : State) :
    (sized s).frame = { decodeRegs s.params s.slots with
      hresRaw := fastWidth (decodeRegs s.params s.slots), vresRaw := fastHeight (decodeRegs s.params s.slots) } := by
  rw [sized, State.withFrame_frame, resolveFast_eq]

/-- How a fast `begin_frame` ends: S3, S4, S5 or a dispatched frame, in this order (R381). -/
theorem beginFrame_fast_eq {s : State} (hfast : s.config.displayMode ≠ .normal) :
    beginFrame s =
      if fastWidth (decodeRegs s.params s.slots) ≤ 0 ∨ fastHeight (decodeRegs s.params s.slots) ≤ 0 then skip .s3 (sized s)
      else if (decodeRegs s.params s.slots).vcurParity = true then skip .s4 (sized s)
      else if (decodeRegs s.params s.slots).isBlank = true then skip .s5 (sized s)
      else dispatch ((clampFastHeight (clampFastWidth (sized s))).withOut []) := by
  obtain ⟨-, -, hdecode, -⟩ := captured_samples s
  rw [beginFrame_eq, if_neg hfast, fastBegin, hdecode]
  simp only [State.withFrame_frame, resolveFast_eq, sized]

theorem sized_control (s : State) : KeepsControl (startFrameStep s) (sized s) :=
  (captured_keepsControl s).trans (withFrame_keepsControl _ _)

/-- The state of a fast frame that is dispatched. -/
def fastProduced (s : State) : State := (clampFastHeight (clampFastWidth (sized s))).withOut []

theorem fastProduced_control (s : State) : KeepsControl (startFrameStep s) (fastProduced s) :=
  (sized_control s).trans ((clampFastWidth_keepsControl _).trans ((clampFastHeight_keepsControl _).trans
    (withOut_keepsControl _ _)))

theorem beginFrame_fast_produced {s : State} (hfast : s.config.displayMode ≠ .normal)
    (hw : 0 < fastWidth (decodeRegs s.params s.slots)) (hh : 0 < fastHeight (decodeRegs s.params s.slots))
    (hparity : (decodeRegs s.params s.slots).vcurParity = false)
    (hblank : (decodeRegs s.params s.slots).isBlank = false) : beginFrame s = dispatch (fastProduced s) := by
  rw [beginFrame_fast_eq hfast, if_neg (by omega), if_neg (by rw [hparity]; decide), if_neg (by rw [hblank]; decide),
    fastProduced]

/-- A frame of the reserved format is blank. -/
theorem decodeRegs_fmt_of_active {P : Params} {r : Regs} (h : (decodeRegs P r).isBlank = false) :
    (decodeRegs P r).fmt ≠ .reserved := by
  intro hfmt
  have hblank : (decodeRegs P r).isBlank = decide ((decodeRegs P r).fmt = .blank ∨ (decodeRegs P r).fmt = .reserved) := rfl
  rw [h, hfmt] at hblank
  exact absurd hblank (by decide)

/-- Settles O32: the clamps with their warnings on the captured state. -/
theorem fastBeginFrameClearsAndSizes : Obligations.FastBeginFrameClearsAndSizes := by
  intro s hfatal hidle hfast C width height hw hh hparity hblank
  have hbegin := beginFrame_fast_produced hfast hw hh hparity hblank
  have hcontrol := fastProduced_control s
  have hparams : (sized s).params = s.params := (sized_control s).params
  obtain ⟨-, hpipe⟩ := captured_picture s
  have hsizedPipe : (beginFrame s).pipe = (captured s).pipe := by rw [beginFrame_eq, if_neg hfast, fastBegin_pipe]
  have hsizedLog : (sized s).log = s.log := by
    rw [sized, State.withFrame_log, captured_log, if_neg (decodeRegs_fmt_of_active hblank), List.append_nil]
  refine ⟨beginFrame s, phaseOperation_clear beginFrame hfatal hidle, ?_, ?_, ?_, ?_, ?_, ?_, hsizedPipe.trans hpipe⟩
  · rw [hbegin, dispatch_fatal, hcontrol.fatal]; exact hfatal
  · rw [hbegin, dispatch_scan, hcontrol.scan]; rfl
  · rw [hbegin, dispatch_out]; rfl
  · rw [hbegin, dispatch_frame, fastProduced, State.withOut_frame, clampFast_frame, hparams, sized_frame]; rfl
  · rw [hbegin, dispatch_frame, fastProduced, State.withOut_frame, clampFast_frame, hparams, sized_frame]; rfl
  · rw [hbegin, dispatch_log, fastProduced, State.withOut_log, clampFast_log, hparams, sized_frame, hsizedLog]; rfl

/-! ### The warnings -/

/-- The reserved format is number 1 (R152). -/
theorem decodeRegs_fmt_eq_reserved_iff (P : Params) (r : Regs) :
    (decodeRegs P r).fmt = .reserved ↔ r.status.toNat % 4 = 1 := by
  have htable : ∀ n < 4, [PixelFormat.blank, .reserved, .rgba5551, .rgba8888].getD n .blank = .reserved ↔ n = 1 := by
    decide
  rw [decodeRegs_fmt]
  exact htable _ (Nat.mod_lt _ (by decide))

/-- Half a height above 0, rounded either way, cut at 0. -/
theorem max_tdiv_two (a : Int) : max (Int.tdiv a 2) 0 = max (a / 2) 0 := by
  rcases le_or_gt 0 a with h | h
  · rw [Int.tdiv_eq_ediv_of_nonneg h]
  · have hneg := Int.neg_tdiv a 2
    have hpos := Int.tdiv_eq_ediv_of_nonneg (a := -a) (b := 2) (by omega)
    omega

/-- The geometry of the captured state warns of the reserved format, the width and the height (R153, R195, R196). -/
theorem capturedGeometry_log (s : State) :
    (resolveGeometry (captured s)).log = s.log ++ (if s.slots.status.toNat % 4 = 1 then [.w1] else []) ++
      (if (resolveGeometry (captured s)).frame.hresClamped then [.w2] else []) ++
      (if (s.params.maxH : Int) < (resolveGeometry (captured s)).frame.vStart +
          (((decodeRegs s.params s.slots).veRaw : Int) - (decodeRegs s.params s.slots).vsRaw) / 2
        then [.w3] else []) := by
  obtain ⟨-, -, hdecode, -⟩ := captured_samples s
  rw [resolveGeometry_log, captured_log, (captured_keeps s).params, hdecode]
  simp only [decodeRegs_fmt_eq_reserved_iff]

/-- The warnings of the dropped scanlines, of a frame whose active-line count is in range (R202). -/
theorem droppedWarnings_eq (P : Params) (C : FrameConfig) {vact : Int} (h0 : 0 ≤ vact) (hmax : vact ≤ P.maxH) :
    List.replicate (droppedCount P C) WarnCode.w4 =
      if 0 ≤ vact ∧ vact ≤ P.maxH ∧ C.isBlank = false ∧ C.validh = true then
        List.replicate ((List.range C.vres.toNat).filter fun y => decide ((P.maxH : Int) ≤ outRow C y)).length .w4
      else [] := by
  rw [droppedCount_eq]
  by_cases hactive : C.isBlank = false ∧ C.validh = true
  · rw [if_pos hactive, if_pos ⟨h0, hmax, hactive⟩]
  · rw [if_neg hactive, if_neg fun ⟨_, _, h⟩ => hactive h]
    rfl

/-- Settles O33: the logs of the stages, one after another. -/
theorem warningsComeInOrder : Obligations.WarningsComeInOrder := by
  intro s hfatal hidle hnormal P C vact voff v0 tooHigh
  obtain ⟨⟨-, -, -, -, -, -, -, hvs, hve, -, -⟩, -⟩ := frameLegal_iff.mp (frameLegal_decodeRegs s.params s.slots)
  have hv0 : (resolveGeometry (captured s)).frame.vStart = v0 := by
    rw [capturedGeometry_frame]
    simp only [FrameConfig.withGeometry, rawVerticalStart, verticalOffset, Nat.cast_ite]
    rfl
  have hlog := capturedGeometry_log s
  rw [hv0] at hlog
  refine ⟨fun hP => ?_, beginFrame s, phaseOperation_clear beginFrame hfatal hidle, ?_⟩
  · have hmask : s.params.vFieldMask.toNat = 1023 := by rw [show s.params = Config.taken from hP]; rfl
    have hmaxH : s.params.maxH = 625 := by rw [show s.params = Config.taken from hP]; rfl
    have hv0' : v0 = max (((C.vsRaw : Int) - voff) / 2) 0 := max_tdiv_two _
    have hvoff : 0 ≤ voff := by simp only [voff]; split <;> exact Int.natCast_nonneg _
    have hvs' : C.vsRaw ≤ 1023 := hmask ▸ hvs
    have hve' : C.veRaw ≤ 1023 := hmask ▸ hve
    simp only [tooHigh, P, hmaxH, hv0', not_lt]
    omega
  · rcases beginFrame_normal_cases hnormal with ⟨hover, e⟩ | ⟨-, hneg, e⟩ | ⟨hle, hge, e⟩
    · rw [e, raiseFatal_log, raiseFatal_frame, hlog]
      exact (List.append_nil _).symm.trans (congrArg _ (if_neg fun ⟨_, hle, _⟩ => absurd hover hle.not_gt).symm)
    · rw [e, skip_log, skip_frame, hlog]
      exact (List.append_nil _).symm.trans (congrArg _ (if_neg fun ⟨hge, _⟩ => absurd hneg hge.not_gt).symm)
    · have hclamped : (placed s).frame.hresClamped = (resolveGeometry (captured s)).frame.hresClamped := by
        rw [placed_frame]
      have hparams : (resolveGeometry (captured s)).params = s.params :=
        (resolveGeometry_keeps _).params.trans (captured_keeps s).params
      rw [e, finishBegin_log, finishBegin_frame, hclamped, placed, placeFrame_log, hparams, ← placed, hlog, droppedWarnings_eq _ _ hge hle]
      rfl

/-! ### The bounds of a rendered frame -/

/-- A `begin_frame` that answers is the one of the model. -/
theorem exec_beginFrame_iff {s t : State} :
    exec .beginFrame s = .next t ↔ s.fatal = false ∧ s.scan.phase = .idle ∧ beginFrame s = t :=
  phaseOperation_next_iff

theorem exec_frameStep_iff {s t : State} :
    exec .frameStep s = .next t ↔ s.fatal = false ∧ s.scan.phase = .idle ∧ frameStep s = t :=
  phaseOperation_next_iff

theorem exec_render_iff {s t : State} :
    exec .render s = .next t ↔ s.fatal = false ∧ s.scan.phase = .render ∧ renderFrame s = t :=
  phaseOperation_next_iff

theorem exec_present_iff {s t : State} :
    exec .present s = .next t ↔ s.fatal = false ∧ s.scan.phase = .present ∧ presentFrame s = t :=
  phaseOperation_next_iff

/-- After `begin_frame` the host's configuration is the sampled one. -/
theorem beginFrame_sampled (s : State) : (beginFrame s).sampled = s.config :=
  (beginFrame_keepsDecode s).sampled.trans (captured_samples s).1

/-- A rendered scanline of a normal frame is one of its scanlines, with its row inside the buffer. -/
theorem mem_renderedScanlines_normal {s : State} (hnormal : s.sampled.displayMode = .normal) {y : Nat}
    (hy : y ∈ renderedScanlines s) : (y : Int) < s.frame.vres ∧ outRow s.frame y < s.params.maxH := by
  simp only [renderedScanlines, hnormal, frameScanlines, List.mem_filter, rowKept, decide_eq_true_eq] at hy
  obtain ⟨hmem, hrow⟩ := hy
  split at hmem
  · cases hmem
  · exact ⟨by have := List.mem_range.mp hmem; omega, hrow⟩

/-- The starts of a normal frame and its size: not negative, and inside the buffer (R187, R194 to R196). -/
theorem beginFrame_bounds {s : State} (hnormal : s.config.displayMode = .normal) :
    0 ≤ (beginFrame s).frame.hStart ∧ 0 ≤ (beginFrame s).frame.vStart ∧
      (beginFrame s).frame.hStart + (beginFrame s).frame.hres ≤ s.params.maxW ∧
      (beginFrame s).frame.vStart + (beginFrame s).frame.vres ≤ s.params.maxH := by
  rw [beginFrame_frame_of_normal hnormal]
  simp only [FrameConfig.withPlaced, FrameConfig.withGeometry]
  omega

/-- Settles O34: the starts and the clamped width bound the column, and the dropped rows are not rendered. -/
theorem renderStaysInsideTheRaster : Obligations.RenderStaysInsideTheRaster := by
  intro s t hnormal hexec hrender y hy i hi
  obtain ⟨-, -, rfl⟩ := exec_beginFrame_iff.mp hexec
  obtain ⟨hh0, hv0, hright, -⟩ := beginFrame_bounds hnormal
  have hsampled : (beginFrame s).sampled.displayMode = .normal := by rw [beginFrame_sampled]; exact hnormal
  obtain ⟨hyv, hrow⟩ := mem_renderedScanlines_normal hsampled hy
  have hrow0 : 0 ≤ outRow (beginFrame s).frame y := by
    unfold outRow
    split <;> split <;> omega
  have hparams := (beginFrame_keeps s).params
  refine ⟨hrow0, hrow, by omega, by rw [hparams]; omega, ?_⟩
  rw [← Bool.not_eq_true, inBorder_iff]
  omega

/-- A vertical start is cut by at most half the greatest offset (R183, R194). -/
theorem verticalCut_le (C : FrameConfig) : max (-rawVerticalStart Config.taken C) 0 ≤ 22 := by
  have hoffset : verticalOffset Config.taken C ≤ 44 := by unfold verticalOffset; split <;> decide
  rw [rawVerticalStart, ← Int.neg_tdiv, max_tdiv_two]
  omega

/-- A horizontal start is cut by at most the greatest offset (R183, R187). -/
theorem horizontalCut_le (C : FrameConfig) : max (-((C.hsRaw : Int) - horizontalOffset Config.taken C)) 0 ≤ 128 := by
  have hoffset : horizontalOffset Config.taken C ≤ 128 := by unfold horizontalOffset; split <;> decide
  omega

/-- A product of a 12-bit factor. -/
theorem mul_le_of_lt_4096 {a : Nat} (ha : a < 4096) {b bound : Int} (h0 : 0 ≤ b) (hb : b ≤ bound) :
    0 ≤ (a : Int) * b ∧ (a : Int) * b ≤ 4095 * bound :=
  ⟨mul_nonneg (Int.natCast_nonneg a) h0, mul_le_mul (by omega) hb h0 (by decide)⟩

/-- The scale starts of a normal frame are at most their fields and what the clamps carry into them (R187, R194). -/
theorem beginFrame_scales {s : State} (hnormal : s.config.displayMode = .normal) (htaken : s.params = Config.taken) :
    (beginFrame s).frame.xStart ≤ 4095 + 4095 * 128 ∧ (beginFrame s).frame.yStart ≤ 4095 + 4095 * 22 := by
  obtain ⟨⟨-, -, -, -, -, -, -, -, -, hx, hy⟩, -⟩ := frameLegal_iff.mp (frameLegal_decodeRegs s.params s.slots)
  obtain ⟨hxs, hys⟩ := decodeRegs_scaleStarts s.params s.slots
  obtain ⟨-, hxCut⟩ := mul_le_of_lt_4096 hx (le_max_right _ _)
    (horizontalCut_le (resolveStandard s.params (decodeRegs s.params s.slots)))
  obtain ⟨-, hyCut⟩ := mul_le_of_lt_4096 hy (le_max_right _ _)
    (verticalCut_le (resolveStandard s.params (decodeRegs s.params s.slots)))
  rw [← htaken] at hxCut hyCut
  rw [beginFrame_frame_of_normal hnormal]
  refine ⟨add_le_add ?_ hxCut, add_le_add ?_ hyCut⟩
  · rw [hxs]; omega
  · rw [hys]; omega

/-- Settles O35: the accumulators of a rendered pixel are bounded, and so are its row, its column and their index. -/
theorem pixelIndicesStayInRange : Obligations.PixelIndicesStayInRange := by
  intro s t htaken hnormal hexec hrender y hy i hi dr dc hdr hdr' hdc hdc'
  obtain ⟨-, -, rfl⟩ := exec_beginFrame_iff.mp hexec
  obtain ⟨hh0, hv0, hright, hbottom⟩ := beginFrame_bounds hnormal
  have hsampled : (beginFrame s).sampled.displayMode = .normal := by rw [beginFrame_sampled]; exact hnormal
  obtain ⟨hyv, -⟩ := mem_renderedScanlines_normal hsampled hy
  obtain ⟨hxStart, hyStart⟩ := beginFrame_scales hnormal htaken
  obtain ⟨⟨horigin, hbase16, hbase32, hw, -, -, -, -, -, hx, hy⟩, -, -, hx0, hy0⟩ :=
    frameLegal_iff.mp (frameLegal_beginFrame s)
  rw [htaken] at hright hbottom
  have hi' : (i : Int) ≤ 639 := by have : Config.taken.maxW = 640 := rfl; omega
  have hy' : (y : Int) ≤ 624 := by have : Config.taken.maxH = 625 := rfl; omega
  generalize (beginFrame s).frame = C at *
  obtain ⟨hxMove0, hxMove⟩ := mul_le_of_lt_4096 hx (Int.natCast_nonneg i) hi'
  obtain ⟨hyMove0, hyMove⟩ := mul_le_of_lt_4096 hy (Int.natCast_nonneg y) hy'
  rw [mul_comm] at hxMove0 hxMove hyMove0 hyMove
  have hcol : 0 ≤ scol C i ∧ scol C i ≤ 3100 := by rw [scol_eq]; omega
  have hrow : 0 ≤ srow C y ∧ srow C y ≤ 2600 := by rw [srow_eq]; omega
  obtain ⟨hline0, hline⟩ := mul_le_of_lt_4096 hw (show 0 ≤ srow C y + dr + 1 by omega)
    (show srow C y + dr + 1 ≤ 2603 by omega)
  have hexpand : (C.w : Int) * (srow C y + dr + 1) = (srow C y + dr) * C.w + C.w := by ring
  unfold pixelIndex idx32 idx16
  split <;> omega

/-! ### The pool at dispatch -/

/-- A worker of an invalidated pool keeps its seed and nothing else (R352). -/
theorem getWorker_invalidateCaches {P : Params} {ws : List (Nat × Worker)} (h : workersWf P ws = true) (k : Nat) :
    getWorker P (invalidateCaches P ws) k = ⟨(getWorker P ws k).seed, {}⟩ := by
  have hfrom (ws : List (Nat × Worker)) : ∀ b, keysFrom b ws →
      getWorker P (invalidateCaches P ws) k = ⟨(getWorker P ws k).seed, {}⟩ := by
    induction ws with
    | nil => exact fun _ _ => rfl
    | cons e rest ih =>
      intro b hb
      have hrest := ih _ hb.2
      simp only [getWorker, invalidateCaches, List.filterMap_cons] at hrest ⊢
      by_cases hk : e.1 = k
      · have hbelow : sparseGet (freshWorker P) rest k = freshWorker P := sparseGet_below _ hb.2 (by omega)
        rw [hbelow] at hrest
        by_cases hseed : e.2.seed = P.seedInit
        · simp only [hseed, if_true, sparseGet, hk, hrest]
          rfl
        · simp only [hseed, if_false, sparseGet, hk, if_true]
      · by_cases hseed : e.2.seed = P.seedInit
        · simp only [hseed, if_true, sparseGet, hk, if_false, hrest]
        · simp only [hseed, if_false, sparseGet, hk, hrest]
  simp only [workersWf, sparseWf, Bool.and_eq_true] at h
  obtain ⟨hrise, -⟩ := h
  exact hfrom ws 0 ((keysRise_iff_keysFrom _).mp hrise)

/-- Settles O36: the dispatch on the pool of before the frame step. -/
theorem poolIsReadyAtDispatch : Obligations.PoolIsReadyAtDispatch := by
  intro s t hwf hexec hrender W
  obtain ⟨-, -, rfl⟩ := exec_beginFrame_iff.mp hexec
  obtain ⟨u, hu, hend⟩ := beginFrame_ends s
  have hparams : (beginFrame s).params = s.params := (beginFrame_keeps s).params
  have hcount : workerCount u.params u.sampled = W := by rw [hu.params, hu.sampled]; rfl
  have hpool : u.pool = s.pool := hu.pool
  have hworkers : u.workers = s.workers := hu.workers
  have huparams : u.params = s.params := hu.params
  rcases hend with ⟨code, e⟩ | e | e
  · rw [e] at hrender; cases hrender
  · rw [e] at hrender; cases hrender
  · rw [hparams, e]
    refine ⟨(dispatch_pool u).trans hcount, fun k => ?_⟩
    rw [dispatch_workers, hcount, hpool, hworkers, huparams]
    split
    · rw [getWorker_invalidateCaches (workersWf_of_wf hwf)]
      exact ⟨rfl, rfl⟩
    · exact ⟨rfl, rfl⟩

end Sys2Proof.Machine
end

section
/-! PROOFS. How a frame step ends, and what is presented; and the partition of the scanlines. -/

namespace Sys2Proof.Machine

/-! ### A frame step and its parts -/

/-- Settles O46: the three ways a frame step goes on after its `begin_frame`. -/
theorem frameStepIsItsParts : Obligations.FrameStepIsItsParts := by
  intro s b hexec
  obtain ⟨hfatal, hidle, rfl⟩ := exec_beginFrame_iff.mp hexec
  refine ⟨fun hphase => ?_, fun hphase => ?_⟩
  · rcases frameStep_cases s with ⟨-, e⟩ | ⟨h, -⟩ | ⟨h, -⟩
    · exact exec_frameStep_iff.mpr ⟨hfatal, hidle, e⟩
    · exact absurd h hphase
    · exact absurd h hphase
  · have hbfatal : (beginFrame s).fatal = false := (beginFrame_render hphase).1.trans hfatal
    refine ⟨_, exec_render_iff.mpr ⟨hbfatal, hphase, rfl⟩, fun hr => ?_, fun hr => ?_⟩
    · rcases frameStep_cases s with ⟨h, -⟩ | ⟨-, -, e⟩ | ⟨-, hpresent, -⟩
      · exact absurd hphase h
      · exact exec_frameStep_iff.mpr ⟨hfatal, hidle, e⟩
      · rcases renderFrame_phase (beginFrame s) with ⟨-, hclear, -⟩ | ⟨hstopped, -⟩
        · rw [hclear, hbfatal] at hr; cases hr
        · rw [hstopped] at hpresent; cases hpresent
    · rcases frameStep_cases s with ⟨h, -⟩ | ⟨-, hstopped, -⟩ | ⟨-, hpresent, e⟩
      · exact absurd hphase h
      · rcases renderFrame_phase (beginFrame s) with ⟨hpresent, -⟩ | ⟨-, hset, -⟩
        · rw [hstopped] at hpresent; cases hpresent
        · rw [hset] at hr; cases hr
      · exact ⟨_, exec_present_iff.mpr ⟨hr, hpresent, rfl⟩, exec_frameStep_iff.mpr ⟨hfatal, hidle, e⟩⟩

/-! ### How a frame step ends -/

/-- A render whose workers do not fail goes on to the presentation. -/
theorem renderFrame_present {s : State}
    (h : anyWorkerFails s.workerFailures (workerCount s.params s.sampled) = false) :
    (renderFrame s).scan.phase = .present := by
  rcases renderFrame_cases s with ⟨-, e⟩ | ⟨-, hfails, -⟩ | ⟨-, -, e⟩
  · rw [e]; rfl
  · rw [h] at hfails; cases hfails
  · rw [e]; rfl

theorem anyWorkerFails_eq_false_iff (failures : List (Nat × Nat)) (W : Nat) :
    anyWorkerFails failures W = false ↔ ∀ f ∈ failures, W ≤ f.1 := by
  simp [anyWorkerFails]

/-- What a presentation sets. -/
theorem presentFrame_outcome (s : State) :
    (presentFrame s).result = some .frame ∧ (presentFrame s).fatal = s.fatal ∧ (presentFrame s).scan = ⟨.idle, 0, 0⟩ ∧
      (presentFrame s).presented = some (descriptorOf s.params s.sampled.displayMode s.frame) ∧
      (presentFrame s).handedOver = true := ⟨rfl, rfl, rfl, rfl, rfl⟩

/-- The descriptor of a fast frame is its size (R390). -/
theorem descriptorOf_fast {mode : DisplayMode} (h : mode ≠ .normal) (P : Params) (C : FrameConfig) :
    descriptorOf P mode C = ⟨C.hresRaw.toNat, C.vresRaw.toNat, C.hresRaw.toNat, C.vresRaw.toNat⟩ := by
  cases mode with
  | normal => exact absurd rfl h
  | rawColor => rfl
  | depth => rfl
  | coverage => rfl

/-- A frame step whose `begin_frame` has dispatched and whose workers do not fail ends in a presented frame. -/
theorem frameStep_of_dispatched {s : State} (hphase : (beginFrame s).scan.phase = .render)
    (hworkers : ∀ f ∈ s.workerFailures, workerCount s.params s.config ≤ f.1) :
    (frameStep s).result = some .frame ∧ (frameStep s).fatal = s.fatal ∧ (frameStep s).scan = ⟨.idle, 0, 0⟩ ∧
      (frameStep s).presented =
        some (descriptorOf s.params s.config.displayMode (frameStep s).frame) := by
  have hkeeps := beginFrame_keeps s
  have hjoin : (renderFrame (beginFrame s)).scan.phase = .present := by
    apply renderFrame_present
    rw [anyWorkerFails_eq_false_iff, hkeeps.workerFailures, hkeeps.params, beginFrame_sampled]
    exact hworkers
  have honly := renderFrame_only (beginFrame s)
  have hframe := (frameStep_settings s).frame
  rcases frameStep_cases s with ⟨h, -⟩ | ⟨-, hstopped, -⟩ | ⟨-, -, e⟩
  · exact absurd hphase h
  · rw [hjoin] at hstopped; cases hstopped
  · rcases renderFrame_phase (beginFrame s) with ⟨-, hfatal, -⟩ | ⟨hstopped, -⟩
    · obtain ⟨h1, h2, h3, h4, -⟩ := presentFrame_outcome (renderFrame (beginFrame s))
      have hparams : (renderFrame (beginFrame s)).params = s.params :=
        (renderFrame_keeps _).params.trans hkeeps.params
      have hsampled : (renderFrame (beginFrame s)).sampled = s.config := by
        rw [honly]; exact beginFrame_sampled s
      rw [hparams, hsampled, (renderFrame_settings _).frame, ← hframe] at h4
      rw [← e] at h1 h2 h3 h4
      exact ⟨h1, h2.trans (hfatal.trans (beginFrame_render hphase).1), h3, h4⟩
    · rw [hjoin] at hstopped; cases hstopped

/-- A frame step whose `begin_frame` has not dispatched is its `begin_frame`. -/
theorem frameStep_of_ended {s : State} (h : (beginFrame s).scan.phase ≠ .render) : frameStep s = beginFrame s := by
  rcases frameStep_cases s with ⟨-, e⟩ | ⟨hphase, -⟩ | ⟨hphase, -⟩
  · exact e
  · exact absurd hphase h
  · exact absurd hphase h

/-- What a Skip of a state with the start's control fields and inputs leaves. -/
theorem skip_outcome {s u : State} (hu : KeepsControl (startFrameStep s) u) (hinputs : KeepsInputs s u)
    (code : SkipCode) :
    (skip code u).result = some (.skip code) ∧ (skip code u).fatal = s.fatal ∧ (skip code u).scan = ⟨.idle, 0, 0⟩ ∧
      (skip code u).presented = s.presented := by
  have hscan : u.scan = ⟨.begin, 0, 0⟩ := hu.scan
  exact ⟨rfl, hu.fatal, by rw [skip_scan, hscan], hinputs.presented⟩

/-- The picture a frame step starts from is the captured one. -/
theorem picture_outcome {s u : State} (hpicture : KeepsPicture (captured s) u) (hnormal : s.config.displayMode = .normal) :
    u.pipe.prevWasBlank = s.pipe.prevWasBlank ∧ u.out = (if s.pipe.modeLatched = .normal then s.out else []) ∧
      u.pipe.fade = (if s.pipe.modeLatched = .normal then s.pipe.fade else []) ∧ u.pipe.modeLatched = .normal := by
  obtain ⟨hout, hpipe⟩ := captured_picture s
  rw [hpicture.prevWasBlank, hpicture.out, hpicture.fade, hpicture.modeLatched, captured_modeLatched, hout, hpipe, hnormal]
  split <;> exact ⟨rfl, rfl, rfl, rfl⟩

/-- Settles O44: F1 and S1 from the geometry, S2 from the placed frame, and else a dispatched frame. -/
theorem normalFrameStepOutcome : Obligations.NormalFrameStepOutcome := by
  intro s hfatal hidle hnormal hworkers C vact
  refine ⟨frameStep s, exec_frameStep_iff.mpr ⟨hfatal, hidle, rfl⟩, ?_⟩
  have hgeometry : KeepsControl (startFrameStep s) (resolveGeometry (captured s)) :=
    (captured_keepsControl s).trans (resolveGeometry_keepsControl _)
  have hinputs : KeepsInputs s (resolveGeometry (captured s)) := (captured_keeps s).trans (resolveGeometry_keeps _)
  obtain ⟨hprev, hout, hfade, hmode⟩ := picture_outcome (resolveGeometry_keepsPicture (captured s)) hnormal
  rcases beginFrame_normal_cases hnormal with ⟨hover, e⟩ | ⟨hle, hneg, e⟩ | ⟨hle, hge, e⟩
  · have hscan : (resolveGeometry (captured s)).scan = ⟨.begin, 0, 0⟩ := hgeometry.scan
    have hended : frameStep s = raiseFatal .f1 (resolveGeometry (captured s)) := by
      rw [frameStep_of_ended (by simp [e]), e]
    rw [if_pos hover, decide_eq_true hover, hended]
    exact ⟨rfl, rfl, by rw [raiseFatal_scan, hscan], hinputs.presented, hmode, fun _ => ⟨hprev, hout, hfade⟩⟩
  · obtain ⟨hresult, hclear, hscan, hpresented⟩ := skip_outcome hgeometry hinputs .s1
    have hended : frameStep s = skip .s1 (resolveGeometry (captured s)) := by
      rw [frameStep_of_ended (by simp [e]), e]
    rw [if_neg hle.not_gt, decide_eq_false hle.not_gt, if_pos hneg, hended, hresult, skip_pipe, skip_out]
    generalize resolveGeometry (captured s) = u at *
    exact ⟨rfl, hclear.trans hfatal, hscan, hpresented, hmode, fun _ => ⟨hprev, hout, hfade⟩⟩
  · rw [if_neg hle.not_gt, decide_eq_false hle.not_gt, if_neg hge.not_gt]
    have hskips : (placed s).frame.isBlank = true ∧ blankSkips (placed s) = true ↔
        C.isBlank = true ∧ s.config.tvFade = false ∧ s.pipe.prevWasBlank = true := by
      rw [placed_isBlank, blankSkips_placed]; rfl
    rw [finishBegin_eq] at e
    obtain ⟨hprev, hout, hfade, hmode⟩ := picture_outcome (placed_keepsPicture s) hnormal
    by_cases hskip : (placed s).frame.isBlank = true ∧ blankSkips (placed s) = true
    · obtain ⟨hresult, hclear, hscan, hpresented⟩ := skip_outcome (placed_control s) (placed_keeps s) .s2
      rw [if_pos hskip] at e
      have hended : frameStep s = skip .s2 (placed s) := by rw [frameStep_of_ended (by simp [e]), e]
      rw [if_pos (hskips.mp hskip), hended, hresult, skip_pipe, skip_out]
      generalize placed s = u at *
      exact ⟨rfl, hclear.trans hfatal, hscan, hpresented, hmode, fun _ => ⟨hprev, hout, hfade⟩⟩
    · rw [if_neg hskip] at e
      obtain ⟨hresult, hclear, hscan, hpresented⟩ := frameStep_of_dispatched (by simp [e]) hworkers
      have hpipe : (frameStep s).pipe.modeLatched = .normal := by
        rw [(frameStep_settings s).pipe, e, dispatch_pipe, produced_pipe]; exact hmode
      rw [if_neg (hskips.not.mp hskip), hresult, hpresented, hnormal]
      exact ⟨rfl, hclear.trans hfatal, hscan, rfl, hpipe, fun h => absurd rfl h⟩

/-- Settles O45: the three Skips on the sized state, and else a dispatched frame. -/
theorem fastFrameStepOutcome : Obligations.FastFrameStepOutcome := by
  intro s hfatal hidle hfast hworkers C width height
  obtain ⟨hout, hpipe⟩ := captured_picture s
  have hinputs : KeepsInputs s (sized s) := (captured_keeps s).trans ⟨rfl, rfl, rfl, rfl, rfl, rfl, rfl, rfl⟩
  have hkeptPipe : (frameStep s).pipe = (captured s).pipe := by
    rw [(frameStep_settings s).pipe, beginFrame_eq, if_neg hfast, fastBegin_pipe]
  rw [← hpipe, ← hout]
  have hskipped (code : SkipCode) (e : beginFrame s = skip code (sized s)) :
      (frameStep s).result = some (.skip code) ∧ (frameStep s).fatal = false ∧ (frameStep s).scan = ⟨.idle, 0, 0⟩ ∧
        (frameStep s).presented = (if (frameStep s).result = some .frame then
          some ⟨(frameStep s).frame.hresRaw.toNat, (frameStep s).frame.vresRaw.toNat,
            (frameStep s).frame.hresRaw.toNat, (frameStep s).frame.vresRaw.toNat⟩ else s.presented) ∧
        (frameStep s).pipe = (captured s).pipe ∧
        ((frameStep s).result ≠ some .frame → (frameStep s).out = (captured s).out) := by
    obtain ⟨hresult, hclear, hscan, hpresented⟩ := skip_outcome (sized_control s) hinputs code
    have hended : frameStep s = skip code (sized s) := by rw [frameStep_of_ended (by simp [e]), e]
    rw [← hended] at hresult hclear hscan hpresented
    refine ⟨hresult, hclear.trans hfatal, hscan, ?_, hkeptPipe, fun _ => by rw [hended, skip_out, sized, State.withFrame_out]⟩
    rw [hresult, hpresented, if_neg (by simp)]
  refine ⟨frameStep s, exec_frameStep_iff.mpr ⟨hfatal, hidle, rfl⟩, ?_⟩
  have e := beginFrame_fast_eq hfast
  change beginFrame s = if width ≤ 0 ∨ height ≤ 0 then _ else if C.vcurParity = true then _ else if C.isBlank = true
    then _ else _ at e
  by_cases hsize : width ≤ 0 ∨ height ≤ 0
  · rw [if_pos hsize] at e ⊢
    exact hskipped .s3 e
  · rw [if_neg hsize] at e ⊢
    by_cases hparity : C.vcurParity = true
    · rw [if_pos hparity] at e ⊢
      exact hskipped .s4 e
    · rw [if_neg hparity] at e ⊢
      by_cases hblank : C.isBlank = true
      · rw [if_pos hblank] at e ⊢
        exact hskipped .s5 e
      · rw [if_neg hblank] at e ⊢
        obtain ⟨hresult, hclear, hscan, hpresented⟩ := frameStep_of_dispatched (by simp [e]) hworkers
        refine ⟨hresult, hclear.trans hfatal, hscan, ?_, hkeptPipe, fun h => absurd hresult h⟩
        rw [hpresented, if_pos hresult, descriptorOf_fast hfast]

/-! ### The sink -/

/-- A pixel stage outside the render phase leaves the buffer and the phase. -/
theorem DrawsPixel.sink {s t : State} {i : Instr} (h : DrawsPixel s i t) (hphase : s.scan.phase ≠ .render) :
    t.out = s.out ∧ t.scan.phase = s.scan.phase := by
  cases h with
  | latched i l hi hmode => exact ⟨rfl, rfl⟩
  | dithered i mode hi => rcases gammaDitherStage_cases mode s with ⟨-, e⟩ | ⟨-, e⟩ <;> rw [e] <;> exact ⟨rfl, rfl⟩
  | clip n => rcases moveToPixel_cases n s with ⟨-, e⟩ | ⟨-, e⟩ <;> rw [startPixel, e] <;> exact ⟨rfl, rfl⟩
  | fetchState y => rcases moveToScanline_cases y s with ⟨-, e⟩ | ⟨-, e⟩ <;> rw [startScanline, e] <;> exact ⟨rfl, rfl⟩
  | pixelWrite hrender => exact absurd hrender hphase
  | fastPixel i y x c hi hrender => exact absurd hrender hphase
  | scanline y hy hrender => exact absurd hrender hphase
  | noScanline y hy hrender => exact absurd hrender hphase

/-- A part of `begin_frame` other than the blank format and the mode leaves the buffer. -/
theorem SetsUp.out {s t : State} {i : Instr} (h : SetsUp s i t) (hi : i ∉ [Instr.fmtBlank, .modeNormal]) :
    t.out = s.out ∧ KeepsControl s t := by
  cases h with
  | blankSkip h => exact absurd (List.mem_cons_self ..) hi
  | blank h => exact absurd (List.mem_cons_self ..) hi
  | reserved => exact ⟨rfl, ⟨rfl, rfl, rfl, rfl, rfl, rfl, rfl, rfl, rfl⟩⟩
  | aaMode i m hmem => exact ⟨rfl, withFrame_keepsControl s _⟩
  | progressive => exact ⟨by rw [applyScan_eq]; rfl, applyScan_keepsControl false s⟩
  | interlaced =>
    exact ⟨by rw [applyScan_eq]; rfl, (applyScan_keepsControl true s).trans (warnDropped_keepsControl _)⟩
  | modeNormal => exact absurd (by simp) hi

/-- An operation in `IDLE` that starts no frame step leaves what the sink reads. -/
theorem Runs.sink {s t : State} {i : Instr} (h : Runs s i t) (hidle : s.scan.phase = .idle)
    (hi : i ∉ [Instr.frameStep, .beginFrame, .fmtBlank, .modeNormal]) :
    t.out = s.out ∧ ∀ row col, sinkRead t row col = sinkRead s row col := by
  have hparams := h.host.params
  simp only [List.mem_cons, List.not_mem_nil, or_false, not_or] at hi
  obtain ⟨hstep, hbegin, hblank, hmode⟩ := hi
  cases h with
  | wreg n v => exact ⟨rfl, fun _ _ => rfl⟩
  | cfg c => exact ⟨rfl, fun _ _ => rfl⟩
  | pixel hfatal h =>
    obtain ⟨hout, hphase⟩ := h.sink (by rw [hidle]; decide)
    exact ⟨hout, fun row col => sinkRead_congr row col hparams hout hphase h.pixelOnly.handedOver⟩
  | setup hfatal hrender hpresent h =>
    obtain ⟨hout, hcontrol⟩ := h.out (by simp [hblank, hmode])
    exact ⟨hout, fun row col =>
      sinkRead_congr row col hparams hout (congrArg ScanPosition.phase hcontrol.scan) hcontrol.handedOver⟩
  | render hfatal hphase => rw [hidle] at hphase; cases hphase
  | present hfatal hphase => rw [hidle] at hphase; cases hphase
  | beginFrame hfatal hphase => exact absurd rfl hbegin
  | frameStep hfatal hphase => exact absurd rfl hstep

/-- `FMT_BLANK` and `MODE_NORMAL` end the sink's interval, as `BEGIN_FRAME` does. -/
theorem Runs.handedOver_of_start {s t : State} {i : Instr} (h : Runs s i t)
    (hi : i ∈ [Instr.beginFrame, .fmtBlank, .modeNormal]) : t.handedOver = false := by
  cases h with
  | wreg n v => simp at hi
  | cfg c => simp at hi
  | pixel hfatal h =>
    cases h with
    | latched i l hnot hmode =>
      simp only [List.mem_cons, List.not_mem_nil, or_false] at hi hmode
      rcases hi with rfl | hi
      · exact absurd (by simp) (hnot 0)
      · exact absurd hi hmode
    | dithered i mode hmem => rcases (by simpa using hmem) with rfl | rfl <;> simp at hi
    | clip n => simp at hi
    | fetchState y => simp at hi
    | pixelWrite hphase => simp at hi
    | fastPixel i y x c hmem hphase => rcases (by simpa using hmem) with rfl | rfl | rfl | rfl <;> simp at hi
    | scanline y hy hphase => simp at hi
    | noScanline y hy hphase => simp at hi
  | setup hfatal hrender hpresent h =>
    cases h with
    | blankSkip h => rfl
    | blank h => exact (blankFrame_keepsControl _).handedOver
    | reserved => simp at hi
    | aaMode i m hmem => rcases (by simpa using hmem) with rfl | rfl | rfl | rfl <;> simp at hi
    | progressive => simp at hi
    | interlaced => simp at hi
    | modeNormal => exact (latchMode_keepsControl _ _).handedOver
  | render hfatal hphase => simp at hi
  | present hfatal hphase => simp at hi
  | beginFrame hfatal hphase =>
    obtain ⟨-, hover, -⟩ := beginFrame_control s
    exact hover
  | frameStep hfatal hphase => simp at hi

/-- After a frame step the sink's interval is on exactly when a frame was presented. -/
theorem frameStep_handedOver (s : State) : (frameStep s).handedOver = true ↔ (frameStep s).result = some .frame := by
  obtain ⟨-, hover, -⟩ := beginFrame_control s
  rcases frameStep_cases s with ⟨hphase, e⟩ | ⟨-, hstopped, e⟩ | ⟨-, -, e⟩
  · obtain ⟨u, -, ⟨code, hend⟩ | hend | hend⟩ := beginFrame_ends s
    · rw [e, hover, hend]; simp
    · rw [e, hover, hend]; simp
    · exact absurd (by rw [hend, dispatch_scan]) hphase
  · rcases renderFrame_phase (beginFrame s) with ⟨hpresent, -⟩ | ⟨-, -, hresult, hclosed⟩
    · rw [hstopped] at hpresent; cases hpresent
    · rw [e, hresult, hclosed]; simp
  · obtain ⟨hresult, -, -, -, hopen⟩ := presentFrame_outcome (renderFrame (beginFrame s))
    rw [e, hresult, hopen]; simp

/-- Settles O42: the presentation, and what each operation and each store leaves of the sink's interval. -/
theorem presentHandsOverTheFrame : Obligations.PresentHandsOverTheFrame := by
  refine ⟨?_, fun i s t hexec => ⟨fun hi row col => ?_, fun hi row col => ?_,
    fun hidle hi => (runs_of_exec hexec).sink hidle hi⟩, fun st s t hexec => ?_, fun s row col => ⟨fun hphase => ?_, ?_⟩⟩
  · intro s hfatal hphase size t
    refine ⟨exec_present_iff.mpr ⟨hfatal, hphase, ?_⟩, fun row col => rfl⟩
    by_cases hmode : s.sampled.displayMode = .normal
    · rw [presentFrame, hmode]; simp only [t, size, hmode]; rfl
    · rw [presentFrame, descriptorOf_fast hmode]; simp only [t, size, hmode]; rfl
  · subst hi
    have hparams := (runs_of_exec hexec).host.params
    obtain ⟨-, -, rfl⟩ := exec_frameStep_iff.mp hexec
    by_cases hframe : (frameStep s).result = some .frame
    · rw [if_pos hframe, ← hparams]
      exact if_pos ⟨frameStep_phase s, (frameStep_handedOver s).mpr hframe⟩
    · rw [if_neg hframe]
      exact sinkRead_refused row col fun h => hframe ((frameStep_handedOver s).mp h.2)
  · refine sinkRead_refused row col fun h => ?_
    rw [(runs_of_exec hexec).handedOver_of_start hi] at h
    exact absurd h.2 (by decide)
  · obtain ⟨-, m, -, rfl⟩ := execStore_next_iff.mp hexec
    exact ⟨rfl, fun _ _ => rfl⟩
  · exact sinkRead_refused row col fun h => hphase h.1
  · exact sinkRead_refused row col fun h => absurd h.2 (by simp [resetBlock, State.reset])

/-! ### The partition -/

theorem mem_ownedScanlines {W : Nat} {ys : List Nat} {k y : Nat} :
    y ∈ ownedScanlines W ys k ↔ y ∈ ys ∧ y % W = k := by
  simp [ownedScanlines]

/-- A later scanline goes to a lower row. -/
theorem outRow_lt {C : FrameConfig} {y y' : Nat} (h : y < y') : outRow C y < outRow C y' := by
  unfold outRow
  split <;> omega

/-- Settles O41: the owner is the residue, and rows rise with the scanlines. -/
theorem rowPartitionIsExact : Obligations.RowPartitionIsExact := by
  refine ⟨fun W ys hW => ⟨fun y hy => ⟨y % W, Nat.mod_lt _ hW, mem_ownedScanlines.mpr ⟨hy, rfl⟩⟩,
    fun k j y hk hj => ?_, fun k y hk => (mem_ownedScanlines.mp hk).1⟩, fun C y y' => outRow_lt⟩
  exact (mem_ownedScanlines.mp hk).2.symm.trans (mem_ownedScanlines.mp hj).2

end Sys2Proof.Machine
end

section
/-! PROOFS. One scanline of the render: what it stores in each pixel, and where it leaves its worker's seed. -/

namespace Sys2Proof.Machine

/-! ### A pixel without caches, in any display mode -/

/-- Pixel `i` is outside the clip window; only a normal frame has one. -/
def clippedIn (s : State) (i : Nat) : Bool := decide (s.sampled.displayMode = .normal) && clippedAt s.frame i

/-- The colour of a pixel before gamma and dither, in the sampled display mode. -/
def pixelColour (s : State) (y i : Nat) : Colour :=
  if s.sampled.displayMode = .normal then scaledColour s.params s.memory s.frame y i
  else fastColour s.params s.memory s.sampled s.frame y i

/-- The worker's seed after pixel `i` of a line. -/
def pixelSeed (s : State) (i : Nat) (seed : Word) : Word :=
  if clippedIn s i then seed else seedAfterPixel s.params s.frame.gdMode seed

/-- The word of a pixel, when its worker's seed stands at `seed` before it. -/
def pixelWord (s : State) (y i : Nat) (seed : Word) : Word :=
  if clippedIn s i then 0
  else pack (finishPixel s.params s.frame.gdMode s.draws y i seed (pixelColour s y i)).1

theorem pixelWord_lt (s : State) (y i : Nat) (seed : Word) : (pixelWord s y i seed).toNat < 2 ^ 24 := by
  unfold pixelWord
  split
  · decide
  · exact pack_lt _

/-- The seed before pixel `n` of a line that starts with `seed`. -/
def seedAt (s : State) (n : Nat) (seed : Word) : Word := (List.range n).foldl (fun w i => pixelSeed s i w) seed

@[simp] theorem seedAt_zero (s : State) (seed : Word) : seedAt s 0 seed = seed := rfl

theorem seedAt_succ (s : State) (n : Nat) (seed : Word) : seedAt s (n + 1) seed = pixelSeed s n (seedAt s n seed) := by
  rw [seedAt, List.range_succ, List.foldl_concat, ← seedAt]

/-- The seed a line leaves its worker. -/
def lineSeed (s : State) (seed : Word) : Word := seedAt s (lineLength s) seed

/-! ### One pixel of a line -/

/-- One pixel of a line in the sampled display mode. -/
def lineStep (s : State) (y : Nat) : LineRun → Nat → LineRun :=
  match s.sampled.displayMode with
  | .normal => normalPixelStep s.params s.memory s.frame s.draws y
  | .rawColor | .depth | .coverage => fastPixelStep s.params s.memory s.sampled s.frame s.draws y

/-- A line's worker before its first pixel: the caches of a normal line are promoted. -/
def lineStart (s : State) (y : Nat) (run : LineRun) : LineRun :=
  match s.sampled.displayMode with
  | .normal => { run with worker := { run.worker with caches := promote s.params (srow s.frame y) run.worker.caches } }
  | .rawColor | .depth | .coverage => run

/-- A line is its pixels in increasing number. -/
theorem lineRun_eq_foldl (s : State) (y : Nat) (run : LineRun) :
    lineRun s y run = (List.range (lineLength s)).foldl (lineStep s y) (lineStart s y run) := by
  unfold lineRun lineStep lineStart lineLength
  cases s.sampled.displayMode <;> rfl

/-- What a pixel stores, and what it leaves of its worker. -/
theorem lineStep_spec {s : State} {run : LineRun} (hold : workerHolds s.params s.memory s.frame run.worker.caches = true)
    (y i : Nat) :
    (lineStep s y run i).out =
        writeOut s.params (targetRow s y) (targetColumn s i) (pixelWord s y i run.worker.seed) run.out ∧
      (lineStep s y run i).worker.seed = pixelSeed s i run.worker.seed ∧
      workerHolds s.params s.memory s.frame (lineStep s y run i).worker.caches = true := by
  by_cases hmode : s.sampled.displayMode = .normal
  · obtain ⟨hword, hseed, hcaches⟩ := cachedPixel_holds s.params s.memory s.frame s.draws y i hold
    have hstep : lineStep s y run i = normalPixelStep s.params s.memory s.frame s.draws y run i := by
      rw [lineStep, hmode]
    have hrow : targetRow s y = outRow s.frame y := by rw [targetRow, hmode]
    have hcolumn : targetColumn s i = s.frame.hStart + i := by rw [targetColumn, hmode]
    rw [hstep, normalPixelStep, hrow, hcolumn, hword, hseed]
    refine ⟨?_, ?_, hcaches⟩
    · rw [pixelWord, clippedIn, pixelColour, if_pos hmode, hmode, pixelDirect]
      cases clippedAt s.frame i <;> rfl
    · rw [pixelSeed, clippedIn, hmode, pixelDirect]
      cases clippedAt s.frame i <;> rfl
  · have hstep : lineStep s y run i =
        fastPixelStep s.params s.memory s.sampled s.frame s.draws y run i := by
      unfold lineStep
      cases h : s.sampled.displayMode with
      | normal => exact absurd h hmode
      | rawColor => rfl
      | depth => rfl
      | coverage => rfl
    have hclip : clippedIn s i = false := by rw [clippedIn, decide_eq_false hmode]; rfl
    have htarget : targetRow s y = y ∧ targetColumn s i = i := by
      unfold targetRow targetColumn
      cases h : s.sampled.displayMode with
      | normal => exact absurd h hmode
      | rawColor => exact ⟨rfl, rfl⟩
      | depth => exact ⟨rfl, rfl⟩
      | coverage => exact ⟨rfl, rfl⟩
    rw [hstep, fastPixelStep, htarget.1, htarget.2, pixelWord, pixelSeed, hclip, pixelColour, if_neg hmode]
    exact ⟨rfl, rfl, hold⟩

/-! ### Targets -/

theorem targetColumn_inj {s : State} {i j : Nat} (h : targetColumn s i = targetColumn s j) : i = j := by
  unfold targetColumn at h
  split at h <;> omega

theorem targetRow_lt {s : State} {y y' : Nat} (h : y < y') : targetRow s y < targetRow s y' := by
  unfold targetRow
  split
  · exact outRow_lt h
  · omega
  · omega
  · omega

theorem targetRow_inj {s : State} {y y' : Nat} (h : targetRow s y = targetRow s y') : y = y' := by
  rcases Nat.lt_trichotomy y y' with hlt | rfl | hlt
  · exact absurd h (targetRow_lt hlt).ne
  · rfl
  · exact absurd h (targetRow_lt hlt).ne'

/-! ### The pixels of a line up to one -/

/-- After the first `n` pixels of line `y`: each holds its word, every other position is as before, and the worker's seed
has moved along. -/
structure LineDrawn (s : State) (y : Nat) (seed : Word) (before : List (Nat × Word)) (n : Nat) (run : LineRun) : Prop where
  form : outWf s.params run.out = true
  hold : workerHolds s.params s.memory s.frame run.worker.caches = true
  moved : run.worker.seed = seedAt s n seed
  drawn : ∀ i < n, inRaster s.params (targetRow s y) (targetColumn s i) = true →
    readOut s.params run.out (targetRow s y) (targetColumn s i) = pixelWord s y i (seedAt s i seed)
  kept : ∀ row col : Int, (∀ i < n, ¬(targetRow s y = row ∧ targetColumn s i = col)) →
    readOut s.params run.out row col = readOut s.params before row col

/-- One more pixel of the line. -/
theorem LineDrawn.step {s : State} {y : Nat} {seed : Word} {before : List (Nat × Word)} {n : Nat} {run : LineRun}
    (h : LineDrawn s y seed before n run) : LineDrawn s y seed before (n + 1) (lineStep s y run n) := by
  obtain ⟨hout, hseed, hhold⟩ := lineStep_spec h.hold y n
  refine ⟨?_, hhold, ?_, fun i hi hin => ?_, fun row col hnot => ?_⟩
  · rw [hout]; exact outWf_writeOut h.form _ _ (pixelWord_lt _ _ _ _)
  · rw [hseed, h.moved, seedAt_succ]
  · rw [hout, readOut_writeOut h.form]
    by_cases hlast : i = n
    · subst hlast
      rw [if_pos ⟨hin, rfl, rfl⟩, h.moved]
    · rw [if_neg fun ⟨_, _, hcol⟩ => hlast (targetColumn_inj hcol)]
      exact h.drawn i (by omega) hin
  · rw [hout, readOut_writeOut h.form, if_neg fun ⟨_, hrow, hcol⟩ => hnot n (by omega) ⟨hrow.symm, hcol.symm⟩]
    exact h.kept row col fun i hi => hnot i (by omega)

/-- A whole line. -/
theorem lineRun_drawn {s : State} (hstale : s.params.cachePromoteStale = false) {run : LineRun}
    (hform : outWf s.params run.out = true)
    (hold : workerHolds s.params s.memory s.frame run.worker.caches = true) (y : Nat) :
    LineDrawn s y run.worker.seed run.out (lineLength s) (lineRun s y run) := by
  have hstart : LineDrawn s y run.worker.seed run.out 0 (lineStart s y run) := by
    unfold lineStart
    split
    · exact ⟨hform, promote_holds _ _ _ hold hstale _, rfl, fun i hi => absurd hi (Nat.not_lt_zero i), fun _ _ _ => rfl⟩
    all_goals exact ⟨hform, hold, rfl, fun i hi => absurd hi (Nat.not_lt_zero i), fun _ _ _ => rfl⟩
  have hfold (n : Nat) : LineDrawn s y run.worker.seed run.out n
      ((List.range n).foldl (lineStep s y) (lineStart s y run)) := by
    induction n with
    | zero => exact hstart
    | succ n ih =>
      rw [List.range_succ, List.foldl_concat]
      exact ih.step
  rw [lineRun_eq_foldl]
  exact hfold _

end Sys2Proof.Machine
end

section
/-! PROOFS. The render as a whole: every worker runs its scanlines, in any order of the workers. -/

namespace Sys2Proof.Machine

/-! ### During the render -/

section
variable {s t : State}

theorem RendersOnly.params (h : RendersOnly s t) : t.params = s.params := by rw [h]; rfl
theorem RendersOnly.sampled (h : RendersOnly s t) : t.sampled = s.sampled := by rw [h]; rfl
theorem RendersOnly.workerFailures (h : RendersOnly s t) : t.workerFailures = s.workerFailures := by rw [h]; rfl

/-- A line is run by what the render does not change. -/
theorem RendersOnly.lineRun (h : RendersOnly s t) (y : Nat) (run : LineRun) :
    Machine.lineRun t y run = Machine.lineRun s y run := by rw [h]; rfl

end

/-- The state `t` is one a render that began in `s` can be in. -/
structure InRender (s t : State) : Prop where
  only : RendersOnly s t
  wf : t.wf = true
  hold : WorkersHold t

/-- The worker that owns a scanline (R345). -/
def ownerOf (s : State) (y : Nat) : Nat := y % workerCount s.params s.sampled

/-- The seed of worker `k` in a state of the render that began in `s`. -/
def workerSeed (s t : State) (k : Nat) : Word := (getWorker s.params t.workers k).seed

/-- From `t` to `u` the scanlines `ys` are stored, each with its seed from `seedOf`, and nothing else in the buffer. -/
structure Draws (s t u : State) (ys : List Nat) (seedOf : Nat → Word) : Prop where
  drawn : ∀ y ∈ ys, ∀ i < lineLength s, inRaster s.params (targetRow s y) (targetColumn s i) = true →
    readOut s.params u.out (targetRow s y) (targetColumn s i) = pixelWord s y i (seedAt s i (seedOf y))
  kept : ∀ row col : Int, (∀ y ∈ ys, ∀ i < lineLength s, ¬(targetRow s y = row ∧ targetColumn s i = col)) →
    readOut s.params u.out row col = readOut s.params t.out row col

theorem Draws.nil (s t : State) (seedOf : Nat → Word) : Draws s t t [] seedOf :=
  ⟨fun _ hy => absurd hy List.not_mem_nil, fun _ _ _ => rfl⟩

/-- Scanlines stored after others leave those as they are, since their rows differ. -/
theorem Draws.append {s t u v : State} {A B : List Nat} {seedOf : Nat → Word} (h : Draws s t u A seedOf)
    (h' : Draws s u v B seedOf) (hdisjoint : ∀ y ∈ A, y ∉ B) : Draws s t v (A ++ B) seedOf := by
  refine ⟨fun y hy i hi hin => ?_, fun row col hnot => ?_⟩
  · rcases List.mem_append.mp hy with hA | hB
    · rw [h'.kept _ _ fun y' hy' j _ ⟨hrow, _⟩ =>
        hdisjoint y hA ((targetRow_inj hrow : y' = y) ▸ hy')]
      exact h.drawn y hA i hi hin
    · exact h'.drawn y hB i hi hin
  · rw [h'.kept row col fun y hy => hnot y (List.mem_append_right A hy),
      h.kept row col fun y hy => hnot y (List.mem_append_left B hy)]

/-- Only which scanlines are stored counts, and the seeds of those. -/
theorem Draws.congr {s t u : State} {A B : List Nat} {seedOf seedOf' : Nat → Word} (h : Draws s t u A seedOf)
    (hmem : ∀ y, y ∈ B ↔ y ∈ A) (hseed : ∀ y ∈ A, seedOf y = seedOf' y) : Draws s t u B seedOf' := by
  refine ⟨fun y hy i hi hin => ?_, fun row col hnot => h.kept row col fun y hy => hnot y ((hmem y).mpr hy)⟩
  rw [← hseed y ((hmem y).mp hy)]
  exact h.drawn y ((hmem y).mp hy) i hi hin

/-! ### The scanlines a worker completes -/

/-- A worker that does not fail completes all it owns. -/
theorem completedScanlines_eq_owned {failures : List (Nat × Nat)} {W k : Nat} (h : ∀ f ∈ failures, W ≤ f.1) (hk : k < W)
    (ys : List Nat) : completedScanlines failures W ys k = ownedScanlines W ys k := by
  have hnone : failures.lookup k = none := by
    rw [List.lookup_eq_none_iff]
    intro f hf
    have := h f hf
    rw [bne_iff_ne]
    omega
  rw [completedScanlines, hnone]

/-! ### One scanline -/

section
variable {s t : State} (hstale : s.params.cachePromoteStale = false)
include hstale

/-- A scanline keeps the render going, moves its owner's seed along, leaves every other worker, and is stored. -/
theorem renderScanline_spec (h : InRender s t) (y : Nat) :
    InRender s (renderScanline t y) ∧
      (∀ j, j ≠ ownerOf s y →
        getWorker s.params (renderScanline t y).workers j = getWorker s.params t.workers j) ∧
      workerSeed s (renderScanline t y) (ownerOf s y) = lineSeed s (workerSeed s t (ownerOf s y)) ∧
      Draws s t (renderScanline t y) [y] fun _ => workerSeed s t (ownerOf s y) := by
  have hparams := h.only.params
  have howner : y % workerCount t.params t.sampled = ownerOf s y := by rw [hparams, h.only.sampled]; rfl
  obtain ⟨-, hform, -, hworkers⟩ := State.wf_iff.mp h.wf
  rw [hparams] at hform hworkers
  have hhold := h.hold.getWorker (ownerOf s y)
  have hmemory : t.memory = s.memory := by rw [h.only]; rfl
  have hframe : t.frame = s.frame := by rw [h.only]; rfl
  rw [hparams, hmemory, hframe] at hhold
  have hline := lineRun_drawn hstale (run := ⟨t.out, getWorker s.params t.workers (ownerOf s y)⟩) hform hhold y
  have hout : (renderScanline t y).out =
      (lineRun s y ⟨t.out, getWorker s.params t.workers (ownerOf s y)⟩).out := by
    rw [← h.only.lineRun, ← howner, ← hparams]; rfl
  have hput : (renderScanline t y).workers = putWorker s.params (ownerOf s y)
      (lineRun s y ⟨t.out, getWorker s.params t.workers (ownerOf s y)⟩).worker t.workers := by
    rw [← h.only.lineRun, ← howner, ← hparams]; rfl
  refine ⟨⟨h.only.trans (renderScanline_rendersOnly t y).1, renderScanline_wf h.wf y,
    renderScanline_workersHold h.hold (by rw [hparams]; exact hstale) y⟩, fun j hj => ?_, ?_, ?_, ?_⟩
  · rw [hput, getWorker_putWorker hworkers, if_neg hj]
  · rw [workerSeed, hput, getWorker_putWorker hworkers, if_pos rfl, hline.moved]; rfl
  · intro y' hy' i hi hin
    rw [List.mem_singleton.mp hy'] at hin ⊢
    rw [hout]
    exact hline.drawn i hi hin
  · intro row col hnot
    rw [hout]
    exact hline.kept row col fun i hi => hnot y (List.mem_singleton_self y) i hi

/-! ### The scanlines of one worker -/

/-- Worker `k` on a rising list of its own scanlines: each starts where the one before has left the seed. -/
theorem foldl_renderScanline_spec (k : Nat) (ys : List Nat) (hrise : ys.Pairwise (· < ·)) (howned : ∀ y ∈ ys, ownerOf s y = k) :
    ∀ t, InRender s t →
      InRender s (ys.foldl renderScanline t) ∧
        (∀ j, j ≠ k → getWorker s.params (ys.foldl renderScanline t).workers j = getWorker s.params t.workers j) ∧
        workerSeed s (ys.foldl renderScanline t) k = (lineSeed s)^[ys.length] (workerSeed s t k) ∧
        Draws s t (ys.foldl renderScanline t) ys fun y =>
          (lineSeed s)^[(ys.filter fun y' => decide (y' < y)).length] (workerSeed s t k) := by
  induction ys with
  | nil => exact fun t h => ⟨h, fun _ _ => rfl, rfl, Draws.nil s t _⟩
  | cons y ys ih =>
    intro t h
    obtain ⟨hfirst, hrest⟩ := List.pairwise_cons.mp hrise
    have hk : ownerOf s y = k := howned y (List.mem_cons_self ..)
    obtain ⟨hone, hother, hseed, hdraw⟩ := renderScanline_spec hstale h y
    rw [hk] at hother hseed hdraw
    obtain ⟨hall, hothers, hseeds, hdraws⟩ :=
      ih hrest (fun y' hy' => howned y' (List.mem_cons_of_mem _ hy')) (renderScanline t y) hone
    refine ⟨hall, fun j hj => (hothers j hj).trans (hother j hj), ?_, ?_⟩
    · rw [List.foldl_cons, hseeds, hseed, ← Function.iterate_succ_apply, List.length_cons]
    · have hnone : (y :: ys).filter (fun y' => decide (y' < y)) = [] := by
        rw [List.filter_eq_nil_iff]
        intro y' hy'
        rcases List.mem_cons.mp hy' with rfl | hy'
        · simp
        · simpa using (hfirst y' hy').le
      have hhead := hdraw.congr (fun _ => Iff.rfl) (seedOf' := fun y' =>
        (lineSeed s)^[((y :: ys).filter fun y'' => decide (y'' < y')).length] (workerSeed s t k)) (fun y' hy' => by
          rw [List.mem_singleton.mp hy', hnone]; rfl)
      have htail := hdraws.congr (fun _ => Iff.rfl) (seedOf' := fun y' =>
        (lineSeed s)^[((y :: ys).filter fun y'' => decide (y'' < y')).length] (workerSeed s t k)) (fun y' hy' => by
          rw [List.filter_cons_of_pos (by simpa using hfirst y' hy'), List.length_cons, Function.iterate_succ_apply, hseed])
      exact hhead.append htail fun y' hy' hmem => by
        rw [List.mem_singleton.mp hy'] at hmem
        exact lt_irrefl y (hfirst y hmem)

/-! ### The workers -/

/-- The seed a scanline starts with in a render from `t`: its owner's, moved along the owner's scanlines before it. -/
def startSeed (s t : State) (ys : List Nat) (y : Nat) : Word :=
  (lineSeed s)^[((ownedScanlines (workerCount s.params s.sampled) ys (ownerOf s y)).filter fun y' => decide (y' < y)).length]
    (workerSeed s t (ownerOf s y))

/-- Workers that do not fail, one after another in any order: each works from its own seed. -/
theorem foldl_runWorker_spec (ys : List Nat) (hrise : ys.Pairwise (· < ·))
    (hworkers : ∀ f ∈ s.workerFailures, workerCount s.params s.sampled ≤ f.1) (ks : List Nat) (hnodup : ks.Nodup)
    (hks : ∀ k ∈ ks, k < workerCount s.params s.sampled) :
    ∀ t, InRender s t →
      let u := ks.foldl (runWorker (workerCount s.params s.sampled) ys) t
      InRender s u ∧ (∀ j, j ∉ ks → getWorker s.params u.workers j = getWorker s.params t.workers j) ∧
        (∀ k ∈ ks, workerSeed s u k =
          (lineSeed s)^[(ownedScanlines (workerCount s.params s.sampled) ys k).length] (workerSeed s t k)) ∧
        Draws s t u (ks.flatMap (ownedScanlines (workerCount s.params s.sampled) ys)) (startSeed s t ys) := by
  induction ks with
  | nil => exact fun t h => ⟨h, fun _ _ => rfl, fun k hk => absurd hk List.not_mem_nil, Draws.nil s t _⟩
  | cons k ks ih =>
    intro t h
    obtain ⟨hnot, hnodup'⟩ := List.nodup_cons.mp hnodup
    have hmemOwned (j y : Nat) (hy : y ∈ ownedScanlines (workerCount s.params s.sampled) ys j) : ownerOf s y = j :=
      (mem_ownedScanlines.mp hy).2
    have hrun : runWorker (workerCount s.params s.sampled) ys t k =
        (ownedScanlines (workerCount s.params s.sampled) ys k).foldl renderScanline t := by
      rw [runWorker, h.only.workerFailures, completedScanlines_eq_owned hworkers (hks k (List.mem_cons_self ..))]
    obtain ⟨hone, hother, hseed, hdraw⟩ := foldl_renderScanline_spec hstale k
      (ownedScanlines (workerCount s.params s.sampled) ys k) (hrise.filter _) (hmemOwned k) t h
    rw [← hrun] at hone hother hseed hdraw
    obtain ⟨hall, hothers, hseeds, hdraws⟩ := ih hnodup' (fun j hj => hks j (List.mem_cons_of_mem _ hj)) _ hone
    have hkeeps (j : Nat) (hj : j ≠ k) : workerSeed s (runWorker (workerCount s.params s.sampled) ys t k) j =
        workerSeed s t j := by rw [workerSeed, hother j hj]; rfl
    refine ⟨hall, fun j hj => ?_, fun j hj => ?_, ?_⟩
    · obtain ⟨hjk, hjks⟩ := not_or.mp (List.mem_cons.not.mp hj)
      exact (hothers j hjks).trans (hother j hjk)
    · rcases List.mem_cons.mp hj with rfl | hj
      · exact (congrArg Worker.seed (hothers j hnot)).trans hseed
      · rw [List.foldl_cons, hseeds j hj, hkeeps j (fun e => hnot (e ▸ hj))]
    · have hhead := hdraw.congr (fun _ => Iff.rfl) (seedOf' := startSeed s t ys) (fun y hy => by
        rw [startSeed, hmemOwned k y hy])
      have htail := hdraws.congr (fun _ => Iff.rfl) (seedOf' := startSeed s t ys) (fun y hy => by
        obtain ⟨j, hj, hy⟩ := List.mem_flatMap.mp hy
        rw [startSeed, startSeed, hmemOwned j y hy, hkeeps j (fun e => hnot (e ▸ hj))])
      refine hhead.append htail fun y hy hy' => ?_
      obtain ⟨j, hj, hyj⟩ := List.mem_flatMap.mp hy'
      rw [← hmemOwned k y hy, hmemOwned j y hyj] at hnot
      exact hnot hj

end

end Sys2Proof.Machine
end

section
/-! PROOFS. What the render and one scanline leave, under the draws and from the seeds. -/

namespace Sys2Proof.Machine

/-! ### The render in any order of the workers -/

theorem workerCount_pos (P : Params) (c : HostConfig) : 0 < workerCount P c := by
  unfold workerCount
  split <;> omega

/-- The rendered scanlines rise. -/
theorem renderedScanlines_rise (s : State) : (renderedScanlines s).Pairwise (· < ·) := by
  unfold renderedScanlines
  split
  · unfold frameScanlines
    split
    · exact List.Pairwise.nil
    · exact List.pairwise_lt_range.filter _
  all_goals exact List.pairwise_lt_range

/-- Every scanline is owned by one of the workers. -/
theorem mem_flatMap_owned {W : Nat} (hW : 0 < W) {order : List Nat} (horder : order.Perm (List.range W)) (ys : List Nat)
    (y : Nat) : y ∈ ys ↔ y ∈ order.flatMap (ownedScanlines W ys) := by
  rw [List.mem_flatMap]
  refine ⟨fun hy => ⟨y % W, ?_, mem_ownedScanlines.mpr ⟨hy, rfl⟩⟩, fun ⟨k, _, hk⟩ => (mem_ownedScanlines.mp hk).1⟩
  rw [horder.mem_iff, List.mem_range]
  exact Nat.mod_lt _ hW

/-- A render whose workers do not fail, its workers in any order. -/
theorem runInOrder_spec {s : State} (hwf : s.wf = true) (hold : WorkersHold s)
    (hstale : s.params.cachePromoteStale = false)
    (hworkers : ∀ f ∈ s.workerFailures, workerCount s.params s.sampled ≤ f.1) {order : List Nat}
    (horder : order.Perm (List.range (workerCount s.params s.sampled))) :
    let u := order.foldl (runWorker (workerCount s.params s.sampled) (renderedScanlines s)) s
    InRender s u ∧
      (∀ j, workerCount s.params s.sampled ≤ j → getWorker s.params u.workers j = getWorker s.params s.workers j) ∧
      (∀ k < workerCount s.params s.sampled, workerSeed s u k =
        (lineSeed s)^[(ownedScanlines (workerCount s.params s.sampled) (renderedScanlines s) k).length]
          (workerSeed s s k)) ∧
      Draws s s u (renderedScanlines s) (startSeed s s (renderedScanlines s)) := by
  have hmem (k : Nat) : k ∈ order ↔ k < workerCount s.params s.sampled := horder.mem_iff.trans List.mem_range
  obtain ⟨hrender, hother, hseeds, hdraws⟩ := foldl_runWorker_spec hstale (renderedScanlines s) (renderedScanlines_rise s)
    hworkers order (horder.nodup_iff.mpr List.nodup_range) (fun k hk => (hmem k).mp hk) s ⟨RendersOnly.refl s, hwf, hold⟩
  exact ⟨hrender, fun j hj => hother j fun h => absurd ((hmem j).mp h) hj.not_gt, fun k hk => hseeds k ((hmem k).mpr hk),
    hdraws.congr (mem_flatMap_owned (workerCount_pos _ _) horder _) fun _ _ => rfl⟩

/-- Two buffers in which the same scanlines show the same words, over the same buffer, are the same. -/
theorem readOut_eq_of_shown {s : State} {ys : List Nat} {word : Nat → Nat → Word} {base o o' : List (Nat × Word)}
    (hdrawn : ∀ y ∈ ys, ∀ i < lineLength s, inRaster s.params (targetRow s y) (targetColumn s i) = true →
      readOut s.params o (targetRow s y) (targetColumn s i) = word y i)
    (hkept : ∀ row col : Int, (∀ y ∈ ys, ∀ i < lineLength s, ¬(targetRow s y = row ∧ targetColumn s i = col)) →
      readOut s.params o row col = readOut s.params base row col)
    (hdrawn' : ∀ y ∈ ys, ∀ i < lineLength s, inRaster s.params (targetRow s y) (targetColumn s i) = true →
      readOut s.params o' (targetRow s y) (targetColumn s i) = word y i)
    (hkept' : ∀ row col : Int, (∀ y ∈ ys, ∀ i < lineLength s, ¬(targetRow s y = row ∧ targetColumn s i = col)) →
      readOut s.params o' row col = readOut s.params base row col) (row col : Int) :
    readOut s.params o row col = readOut s.params o' row col := by
  by_cases hin : inRaster s.params row col = true
  · by_cases htarget : ∃ y ∈ ys, ∃ i < lineLength s, targetRow s y = row ∧ targetColumn s i = col
    · obtain ⟨y, hy, i, hi, rfl, rfl⟩ := htarget
      rw [hdrawn y hy i hi hin, hdrawn' y hy i hi hin]
    · have hnot : ∀ y ∈ ys, ∀ i < lineLength s, ¬(targetRow s y = row ∧ targetColumn s i = col) :=
        fun y hy i hi h => htarget ⟨y, hy, i, hi, h⟩
      rw [hkept row col hnot, hkept' row col hnot]
  · rw [readOut, readOut, if_neg hin, if_neg hin]

/-! ### The render under the draws -/

/-- Under the draws a pixel's word is the direct one, whatever the seed. -/
theorem pixelWord_draw {s : State} (hdraw : s.params.ditherSource = .draw) (y i : Nat) (seed : Word) :
    pixelWord s y i seed = directPixel s y i := by
  rw [pixelWord, finishPixel_draw hdraw, clippedIn, pixelColour, directPixel]
  cases s.sampled.displayMode with
  | normal => rfl
  | rawColor => rfl
  | depth => rfl
  | coverage => rfl

/-- A render that draws something and does not fail joins its workers. -/
theorem renderFrame_joins {s : State} (hnothing : s.sampled.displayMode = .normal → s.frame.isBlank = false ∧ s.frame.validh = true)
    (hworkers : ∀ f ∈ s.workerFailures, workerCount s.params s.sampled ≤ f.1) :
    renderFrame s = joinWorkers (scanlineCount s) (runWorkers s) := by
  have hdraws : rendersNothing s = false := by
    unfold rendersNothing
    by_cases hmode : s.sampled.displayMode = .normal
    · obtain ⟨hblank, hvalid⟩ := hnothing hmode
      rw [hblank, hvalid, Bool.not_true, Bool.or_false, Bool.and_false]
    · rw [decide_eq_false hmode, Bool.false_and]
  have hnofail := (anyWorkerFails_eq_false_iff _ _).mpr hworkers
  rcases renderFrame_cases s with ⟨h, -⟩ | ⟨-, h, -⟩ | ⟨-, -, e⟩
  · rw [hdraws] at h; cases h
  · rw [hnofail] at h; cases h
  · exact e

/-- A join of a state of the render changes the buffer, the workers and the scan position at most. -/
theorem joinWorkers_only {s u : State} (h : RendersOnly s u) (n : Nat) :
    joinWorkers n u = { s with out := (joinWorkers n u).out, workers := (joinWorkers n u).workers, scan := ⟨.present, n, 0⟩ } := by
  rw [joinWorkers, h]; rfl

/-- The workers of a state in the render phase with coherent caches hold only fresh values. -/
theorem workersHold_of_coherent {s : State} (hfatal : s.fatal = false) (hphase : s.scan.phase = .render)
    (hstale : s.params.cachePromoteStale = false) (hcoherent : s.cachesCoherent = true) : WorkersHold s :=
  cachesCoherent_iff.mp hcoherent hphase hfatal hstale

/-- A frame with nothing to render has no rendered scanlines. -/
theorem renderedScanlines_of_nothing {s : State} (h : rendersNothing s = true) : renderedScanlines s = [] := by
  simp only [rendersNothing, Bool.and_eq_true, decide_eq_true_eq] at h
  obtain ⟨hmode, hnone⟩ := h
  rw [renderedScanlines, hmode, frameScanlines, if_pos hnone]
  rfl

/-- What a render whose workers do not fail leaves in the buffer. -/
theorem renderFrame_draws {s : State} (hwf : s.wf = true) (hold : WorkersHold s)
    (hstale : s.params.cachePromoteStale = false)
    (hworkers : ∀ f ∈ s.workerFailures, workerCount s.params s.sampled ≤ f.1) :
    Draws s s (renderFrame s) (renderedScanlines s) (startSeed s s (renderedScanlines s)) := by
  obtain ⟨-, -, -, hdraws⟩ := runInOrder_spec hwf hold hstale hworkers (List.Perm.refl _)
  have hnofail := (anyWorkerFails_eq_false_iff _ _).mpr hworkers
  rcases renderFrame_cases s with ⟨hnone, e⟩ | ⟨-, h, -⟩ | ⟨-, -, e⟩
  · rw [e, renderedScanlines_of_nothing hnone]
    exact ⟨fun _ hy => absurd hy List.not_mem_nil, fun _ _ _ => rfl⟩
  · rw [hnofail] at h; cases h
  · rw [e]; exact ⟨hdraws.drawn, hdraws.kept⟩

/-- Scanlines drawn under the draws show the direct pixels. -/
theorem Draws.direct {s t u : State} {ys : List Nat} {seedOf : Nat → Word} (h : Draws s t u ys seedOf)
    (hdraw : s.params.ditherSource = .draw) : ∀ y ∈ ys, ∀ i < lineLength s,
      inRaster s.params (targetRow s y) (targetColumn s i) = true →
        readOut s.params u.out (targetRow s y) (targetColumn s i) = directPixel s y i :=
  fun y hy i hi hin => (h.drawn y hy i hi hin).trans (pixelWord_draw hdraw _ _ _)

/-- Settles O37: the workers in increasing number, their pixels drawn without seeds. -/
theorem renderWritesEveryPixelDirectly : Obligations.RenderWritesEveryPixelDirectly := by
  intro s hfatal hphase hwf hcoherent hstale hdraw hworkers hnothing
  have hold := workersHold_of_coherent hfatal hphase hstale hcoherent
  obtain ⟨⟨honly, -, -⟩, -⟩ := runInOrder_spec hwf hold hstale hworkers (List.Perm.refl _)
  have hdraws := renderFrame_draws hwf hold hstale hworkers
  refine ⟨renderFrame s, exec_render_iff.mpr ⟨hfatal, hphase, rfl⟩, ?_, hdraws.direct hdraw, hdraws.kept⟩
  have hcount : scanlineCount s =
      (if s.sampled.displayMode = .normal then s.frame.vres else s.frame.vresRaw).toNat := scanlineCount_eq s
  rw [renderFrame_joins hnothing hworkers, ← hcount]
  exact joinWorkers_only honly _

/-- Settles O38: every order and every count of workers shows the direct pixels over the same buffer. -/
theorem renderDoesNotDependOnWorkers : Obligations.RenderDoesNotDependOnWorkers := by
  intro s n pool ws s' hfatal hphase hwf hwf' hcoherent hcoherent' hstale hdraw hnofail
  have hold := workersHold_of_coherent hfatal hphase hstale hcoherent
  have hold' := workersHold_of_coherent (s := s') hfatal hphase hstale hcoherent'
  have hnone {W : Nat} {fs : List (Nat × Nat)} (h : fs = []) : ∀ f ∈ fs, W ≤ f.1 := by simp [h]
  have hdraws := renderFrame_draws hwf hold hstale (hnone hnofail)
  have hdraws' := renderFrame_draws (s := s') hwf' hold' hstale (hnone hnofail)
  have hdirect' := hdraws'.direct hdraw
  have hkept' := hdraws'.kept
  refine ⟨renderFrame s, renderFrame s', exec_render_iff.mpr ⟨hfatal, hphase, rfl⟩, exec_render_iff.mpr ⟨hfatal, hphase, rfl⟩,
    readOut_eq_of_shown (hdraws.direct hdraw) hdraws.kept hdirect' hkept', fun order horder => ?_⟩
  obtain ⟨-, -, -, hordered⟩ := runInOrder_spec hwf hold hstale (hnone hnofail) horder
  exact readOut_eq_of_shown (hordered.direct hdraw) hordered.kept (hdraws.direct hdraw) hdraws.kept

/-- Settles O40: one scanline by its owner, or nothing. -/
theorem scanlineWritesItsRow : Obligations.ScanlineWritesItsRow := by
  intro s y hfatal hphase hwf hcoherent hstale hdraw
  have hold := workersHold_of_coherent hfatal hphase hstale hcoherent
  dsimp only [exec]
  refine ⟨fun hnot => (phaseOperation_clear _ hfatal hphase).trans ?_, fun hy => ?_⟩
  · rw [if_neg (by simpa using hnot)]
  · obtain ⟨-, hother, -, hdraws⟩ := renderScanline_spec hstale ⟨RendersOnly.refl s, hwf, hold⟩ y
    refine ⟨renderScanline s y, (phaseOperation_clear _ hfatal hphase).trans ?_, rfl, hother,
      hdraws.direct hdraw y (List.mem_singleton_self y), fun row col hnot => hdraws.kept row col fun y' hy' => ?_⟩
    · rw [if_pos (by simpa using hy)]
    · rw [List.mem_singleton.mp hy']; exact hnot

/-- Settles O39: the render of nothing, and the join of workers of which one has failed. -/
theorem renderOfNothingAndWorkerFailure : Obligations.RenderOfNothingAndWorkerFailure := by
  intro s hfatal hphase
  refine ⟨fun hmode hnothing => exec_render_iff.mpr ⟨hfatal, hphase, ?_⟩, fun hdraws ⟨f, hf, hlt⟩ => ?_⟩
  · have hnone : rendersNothing s = true := by
      rcases hnothing with h | h <;> simp [rendersNothing, hmode, h]
    rw [renderFrame, if_pos hnone]; rfl
  · have hfails : anyWorkerFails s.workerFailures (workerCount s.params s.sampled) = true :=
      List.any_eq_true.mpr ⟨f, hf, decide_eq_true hlt⟩
    refine ⟨renderFrame s, exec_render_iff.mpr ⟨hfatal, hphase, rfl⟩, ?_⟩
    obtain ⟨honly, -⟩ := runWorkers_rendersOnly s
    rcases renderFrame_cases s with ⟨hnone, -⟩ | ⟨-, -, e⟩ | ⟨-, hno, -⟩
    · by_cases hmode : s.sampled.displayMode = .normal
      · obtain ⟨hblank, hvalid⟩ := hdraws hmode
        simp [rendersNothing, hblank, hvalid] at hnone
      · simp [rendersNothing, hmode] at hnone
    · rw [e]
      generalize runWorkers s = u at honly
      rw [honly]
      exact ⟨rfl, rfl, rfl, rfl⟩
    · rw [hfails] at hno; cases hno

end Sys2Proof.Machine
end

section
/-! PROOFS. The render from the workers' seeds (`DITHER_SOURCE = LCG`). -/

namespace Sys2Proof.Machine

/-! ### Seeds in closed form -/

theorem clippedIn_eq (s : State) (i : Nat) :
    clippedIn s i = (decide (s.sampled.displayMode = .normal) &&
      decide ((i : Int) < s.frame.marginLo ∨ s.frame.marginHi ≤ (i : Int))) := by
  rw [clippedIn, clippedAt, Bool.decide_or]

theorem modeDithers_iff (mode : GdMode) : modeDithers mode = true ↔ mode = .dither ∨ mode = .gammaDither := by
  cases mode <;> decide

/-- Under the LCG the seed is advanced once for each pixel inside the clip window, in a dithering mode only (R317). -/
theorem seedAt_lcg {s : State} (h : s.params.ditherSource = .lcg) (n : Nat) (seed : Word) :
    seedAt s n seed =
      if s.frame.gdMode = .dither ∨ s.frame.gdMode = .gammaDither then
        lcgAdvance^[((List.range n).filter fun i => !clippedIn s i).length] seed
      else seed := by
  induction n with
  | zero => simp
  | succ n ih =>
    rw [seedAt_succ, ih, pixelSeed, seedAfterPixel, h, List.range_succ, List.filter_append, List.length_append]
    by_cases hmode : s.frame.gdMode = .dither ∨ s.frame.gdMode = .gammaDither
    · simp only [if_pos hmode, (modeDithers_iff _).mpr hmode, if_true]
      cases hclip : clippedIn s n
      · rw [List.filter_cons_of_pos (by simp [hclip]), List.filter_nil, List.length_singleton, Function.iterate_succ_apply']
        rfl
      · rw [List.filter_cons_of_neg (by simp [hclip]), List.filter_nil, List.length_nil, Nat.add_zero]
        rfl
    · simp only [if_neg hmode, (modeDithers_iff _).not.mpr hmode, Bool.false_eq_true, if_false, ite_self]

/-- The dither bits of mode 1 from a seed's random number (R317). -/
theorem lcgDither1_eq (rnd : Nat) :
    lcgDither1 rnd = fun ch => BitVec.ofNat 1 (match ch with | .r => rnd | .g => rnd >>> 1 | .b => rnd >>> 2) := by
  funext ch; cases ch <;> rfl

/-- The dither bits of mode 3 from a seed's random number (R317). -/
theorem lcgDither6_eq (rnd : Nat) :
    lcgDither6 rnd = fun ch => BitVec.ofNat 6
      (match ch with | .r => rnd | .g => rnd >>> 6 | .b => ((rnd >>> 9) &&& 0x38) ||| (rnd &&& 7)) := by
  funext ch; cases ch <;> rfl

/-- With an LCG a pixel takes its bits from the seed after it. -/
theorem finishPixel_lcg_fst {P : Params} (h : P.ditherSource = .lcg) (mode : GdMode) (draws y i : Nat) (seed : Word)
    (c : Colour) : (finishPixel P mode draws y i seed c).1 =
      gammaDither mode (lcgDither1 (lcgRandom (seedAfterPixel P mode seed)))
        (lcgDither6 (lcgRandom (seedAfterPixel P mode seed))) c := by
  have h1 (w : Word) : dither1 P draws y i w = lcgDither1 (lcgRandom w) := by funext ch; rw [dither1, h]
  have h6 (w : Word) : dither6 P draws y i w = lcgDither6 (lcgRandom w) := by funext ch; rw [dither6, h]
  simp only [finishPixel, h1, h6]

/-- The word of pixel `i` of a line that starts with `seed`: its bits are those of the seed after the pixel. -/
theorem pixelWord_lcg {s : State} (h : s.params.ditherSource = .lcg) (y i : Nat) (seed : Word) :
    pixelWord s y i (seedAt s i seed) =
      if clippedIn s i then 0
      else pack (gammaDither s.frame.gdMode (lcgDither1 (lcgRandom (seedAt s (i + 1) seed)))
        (lcgDither6 (lcgRandom (seedAt s (i + 1) seed))) (pixelColour s y i)) := by
  rw [pixelWord, finishPixel_lcg_fst h, seedAt_succ, pixelSeed]
  split <;> rfl

/-! ### Two counts of workers -/

/-- Two fast lines of one pixel, black but for the dither, in the render phase. -/
def twoSeededLines : State :=
  { params := { maxW := 1, maxH := 2, rdramSize := 0, ditherSource := .lcg }
    scan := ⟨.render, 0, 0⟩
    sampled := { displayMode := .rawColor, numWorkers := 1 }
    frame := { gdMode := .dither, hresRaw := 1, vresRaw := 2 } }

/-- The second line, by one worker and by a second one: a fresh seed gives it other bits. -/
theorem twoSeededLines_differ :
    readOut twoSeededLines.params (renderFrame twoSeededLines).out 1 0 ≠
      readOut twoSeededLines.params
        (renderFrame (twoSeededLines.withSampled { twoSeededLines.sampled with numWorkers := 2 })).out 1 0 := by
  decide

/-- Settles O60: the seeds of the general render in the closed form of the LCG, and two counts that differ. -/
theorem seededRenderFollowsTheSeeds : Obligations.SeededRenderFollowsTheSeeds := by
  refine ⟨?_, twoSeededLines, 2, _, _, rfl, exec_render_iff.mpr ⟨rfl, rfl, rfl⟩, exec_render_iff.mpr ⟨rfl, rfl, rfl⟩, 1, 0,
    twoSeededLines_differ⟩
  intro s hfatal hphase hwf hcoherent hstale hlcg P C W normal clipped advance after pixel seedOf
  have hold := workersHold_of_coherent hfatal hphase hstale hcoherent
  have hclipped (i : Nat) : clipped i = clippedIn s i := (clippedIn_eq s i).symm
  have hafter (n : Nat) (seed : Word) : after n seed = seedAt s n seed := by
    rw [seedAt_lcg hlcg]
    simp only [after, hclipped]
    rfl
  have hline : after (lineLength s) = lineSeed s := funext (hafter (lineLength s))
  have hpixel (y i : Nat) (seed : Word) : pixelWord s y i (seedAt s i seed) = pixel y i seed := by
    have hcolour : pixelColour s y i =
        if normal then scaledColour P s.memory C y i else fastColour P s.memory s.sampled C y i := by
      simp only [pixelColour, normal, decide_eq_true_eq]
      rfl
    have hword := pixelWord_lcg hlcg y i seed
    rw [lcgDither1_eq, lcgDither6_eq, lcgRandom_eq, ← hafter (i + 1), ← hclipped, hcolour] at hword
    exact hword
  rw [hline]
  refine ⟨fun y hnot => ?_, fun y hy => ?_, fun hworkers hnothing => ?_⟩
  · dsimp only [exec]
    refine (phaseOperation_clear _ hfatal hphase).trans ?_
    rw [if_neg (by simpa using hnot)]
  · obtain ⟨-, hother, hseed, hdraws⟩ := renderScanline_spec hstale ⟨RendersOnly.refl s, hwf, hold⟩ y
    dsimp only [exec]
    refine ⟨renderScanline s y, (phaseOperation_clear _ hfatal hphase).trans ?_, rfl, hother, hseed,
      fun i hi hin => ?_, fun row col hnot => hdraws.kept row col fun y' hy' => ?_⟩
    · rw [if_pos (by simpa using hy)]
    · rw [← hpixel]; exact hdraws.drawn y (List.mem_singleton_self y) i hi hin
    · rw [List.mem_singleton.mp hy']; exact hnot
  · obtain ⟨⟨honly, -, -⟩, hother, hseeds, -⟩ := runInOrder_spec hwf hold hstale hworkers (List.Perm.refl _)
    have hdraws := renderFrame_draws hwf hold hstale hworkers
    have hdrawn (u : State) (h : Draws s s u (renderedScanlines s) (startSeed s s (renderedScanlines s))) :
        ∀ y ∈ renderedScanlines s, ∀ i < lineLength s, inRaster P (targetRow s y) (targetColumn s i) = true →
          readOut P u.out (targetRow s y) (targetColumn s i) = pixel y i ((lineSeed s)^[
            ((ownedScanlines W (renderedScanlines s) (y % W)).filter fun y' => decide (y' < y)).length]
              (seedOf (y % W))) := fun y hy i hi hin => by
      rw [← hpixel]; exact h.drawn y hy i hi hin
    refine ⟨renderFrame s, exec_render_iff.mpr ⟨hfatal, hphase, rfl⟩, ?_, ?_, ?_, hdraws.kept, hdrawn _ hdraws,
      fun order horder => ?_⟩
    · rw [renderFrame_joins hnothing hworkers]
      exact joinWorkers_only honly _
    · rw [renderFrame_joins hnothing hworkers]
      exact hother
    · rw [renderFrame_joins hnothing hworkers]
      exact hseeds
    · obtain ⟨-, -, -, hordered⟩ := runInOrder_spec hwf hold hstale hworkers horder
      exact readOut_eq_of_shown (hdrawn _ hordered) hordered.kept (hdrawn _ hdraws) hdraws.kept

end Sys2Proof.Machine
end

section
/-! PROOFS. The fast pixel operations, and the stages of a pixel asked for one after another. -/

namespace Sys2Proof.Machine

/-! ### The fast decodes as arithmetic -/

/-- Cutting the union of two words off as a byte commutes with reading it as a number. -/
theorem setWidth_or_eq_ofNat {v w : Nat} (x y : BitVec v) :
    (x ||| y).setWidth w = BitVec.ofNat w (x.toNat ||| y.toNat) := by
  apply BitVec.eq_of_toNat_eq
  simp only [BitVec.toNat_setWidth, BitVec.toNat_or, BitVec.toNat_ofNat]

/-- A left shift wraps above the word, which a narrower union does not see. -/
theorem ofNat_shiftLeft_and_or {v w : Nat} (x : BitVec v) (k mask z : Nat) (h : w ≤ v) :
    BitVec.ofNat w (((x <<< k).toNat &&& mask) ||| z) = BitVec.ofNat w (((x.toNat <<< k) &&& mask) ||| z) := by
  have hand := congrArg BitVec.toNat (ofNat_shiftLeft_and x k mask h)
  apply BitVec.eq_of_toNat_eq
  simp only [BitVec.toNat_ofNat, Nat.or_mod_two_pow] at hand ⊢
  rw [hand]

/-- The 16-bit raw colour as masks of its number (R385). -/
theorem rawColour16_eq (P : Params) (p : BitVec 16) :
    rawColour16 P p =
      if P.fastExpand = .replicate then
        ⟨BitVec.ofNat 8 (((p.toNat >>> 8) &&& 0xF8) ||| (p.toNat >>> 13)),
          BitVec.ofNat 8 (((p.toNat >>> 3) &&& 0xF8) ||| ((p.toNat >>> 8) &&& 7)),
          BitVec.ofNat 8 (((p.toNat <<< 2) &&& 0xF8) ||| ((p.toNat >>> 3) &&& 7))⟩
      else ⟨BitVec.ofNat 8 ((p.toNat >>> 8) &&& 0xF8), BitVec.ofNat 8 ((p.toNat >>> 3) &&& 0xF8),
        BitVec.ofNat 8 ((p.toNat <<< 2) &&& 0xF8)⟩ := by
  have h7 (x : BitVec 16) : (x &&& 7).toNat = x.toNat &&& 7 := BitVec.toNat_and x 7
  have hF8 (x y : BitVec 16) : ((x &&& 0xF8) ||| y).setWidth 8 = BitVec.ofNat 8 ((x.toNat &&& 0xF8) ||| y.toNat) :=
    (setWidth_or_eq_ofNat _ y).trans (by rw [BitVec.toNat_and]; rfl)
  unfold rawColour16
  cases P.fastExpand with
  | zero => exact decode5551_eq p
  | replicate =>
    rw [if_pos rfl]
    have hr := hF8 (p >>> 8) (p >>> 13)
    have hg := hF8 (p >>> 3) ((p >>> 8) &&& 7)
    have hb := hF8 (p <<< 2) ((p >>> 3) &&& 7)
    rw [ofNat_shiftLeft_and_or p 2 0xF8 _ (show 8 ≤ 16 by decide)] at hb
    rw [h7, BitVec.toNat_ushiftRight] at hg hb
    exact congr (congr (congrArg Colour.mk hr) hg) hb

/-- The depth grey as arithmetic (R387). -/
theorem depthColour_eq (p : BitVec 16) : depthColour p =
    ⟨BitVec.ofNat 8 (p.toNat >>> 8), BitVec.ofNat 8 (p.toNat >>> 8), BitVec.ofNat 8 (p.toNat >>> 8)⟩ := by
  have hhigh : p.extractLsb' 8 8 = BitVec.ofNat 8 (p.toNat >>> 8) := by
    apply BitVec.eq_of_toNat_eq
    rw [BitVec.extractLsb'_toNat, BitVec.toNat_ofNat]
  rw [depthColour, hhigh, grey]

/-- The coverage grey as arithmetic (R388). -/
theorem coverageColour_eq (p : BitVec 16) (h : BitVec 2) : coverageColour p h =
    ⟨BitVec.ofNat 8 ((((p.toNat &&& 1) <<< 2) ||| h.toNat) <<< 5), BitVec.ofNat 8 ((((p.toNat &&& 1) <<< 2) ||| h.toNat) <<< 5),
      BitVec.ofNat 8 ((((p.toNat &&& 1) <<< 2) ||| h.toNat) <<< 5)⟩ := by
  have hbits : coverage5551 p h ++ (0 : BitVec 5) = BitVec.ofNat 8 ((((p.toNat &&& 1) <<< 2) ||| h.toNat) <<< 5) := by
    apply BitVec.eq_of_toNat_eq
    rw [toNat_append_eq, coverage5551_eq, BitVec.toNat_ofNat, BitVec.toNat_ofNat, Nat.shiftLeft_eq _ 5]
    change _ * 2 ^ 5 + 0 = _
    omega
  rw [coverageColour, hbits, grey]

/-! ### A fast pixel -/

/-- Under the LCG the seed after a pixel (R317). -/
theorem seedAfterPixel_lcg {P : Params} (h : P.ditherSource = .lcg) (mode : GdMode) (seed : Word) :
    seedAfterPixel P mode seed =
      if mode = .dither ∨ mode = .gammaDither then BitVec.ofNat 32 (seed.toNat * 0x343FD + 0x269EC3) else seed := by
  rw [seedAfterPixel, h, ← lcgAdvance_eq]
  simp only [modeDithers_iff]

/-- Settles O43: the store of a fast pixel of a decoded colour, for each of the four decodes. -/
theorem fastPixelsDecodeAndStore : Obligations.FastPixelsDecodeAndStore := by
  intro s y x hfatal hphase hwf lines pixels line p h q z rgb raw16 cvg owner old seed rnd bits1 bits6
  obtain ⟨-, hout, -, hworkers⟩ := State.wf_iff.mp hwf
  have hinside : insideFrame s y x = true ↔ (y : Int) < lines ∧ (x : Int) < pixels := by
    rw [insideFrame_iff, lt_scanlineCount_iff, lt_lineLength_iff]
  have hexec : ∀ e ∈ [(Instr.rawColor16 y x, raw16),
      (Instr.rawColor32 y x, rgb ((q >>> 24) &&& 0xFF) ((q >>> 16) &&& 0xFF) ((q >>> 8) &&& 0xFF)),
      (Instr.depth y x, rgb (z >>> 8) (z >>> 8) (z >>> 8)), (Instr.coverage y x, rgb cvg cvg cvg)],
      exec e.1 s = .next (fastPixel y x e.2 s) := by
    intro e he
    simp only [List.mem_cons, List.not_mem_nil, or_false] at he
    rcases he with rfl | rfl | rfl | rfl <;> dsimp only [exec] <;>
      refine (phaseOperation_clear _ hfatal hphase).trans (congrArg (fun c => Host.Outcome.next (fastPixel y x c s)) ?_)
    · exact rawColour16_eq _ _
    · exact decode8888_eq _
    · rw [fastDepth, depthColour_eq, Nat.shiftRight_eq_div_pow _ 1]
    · exact coverageColour_eq _ _
  intro e he
  rw [hexec e he]
  refine ⟨fun hin => ?_, fun hin => ?_⟩
  · rw [fastPixel_inside _ (hinside.mpr hin)]
    refine ⟨_, _, rfl, fun hdraw => ⟨fun k => ?_, fun hy hx => ?_⟩, fun hlcg => ⟨fun k => ?_, fun hy hx => ?_⟩,
      fun r c hrc => ?_⟩
    · rw [finishPixel_draw hdraw, getWorker_putWorker hworkers]
      split
      next hk => rw [hk]
      next => rfl
    · rw [readOut_writeOut hout, if_pos ⟨inRaster_iff.mpr (by omega), rfl, rfl⟩, finishPixel_draw hdraw]
    · rw [getWorker_putWorker hworkers]
      have hseed := seedAfterPixel_lcg hlcg s.frame.gdMode old.seed
      change _ = seed at hseed
      rw [← hseed]
      rfl
    · have hword := finishPixel_lcg_fst hlcg s.frame.gdMode s.draws y x old.seed e.2
      have hseed := seedAfterPixel_lcg hlcg s.frame.gdMode old.seed
      change _ = seed at hseed
      rw [hseed, lcgDither1_eq, lcgDither6_eq, lcgRandom_eq] at hword
      rw [readOut_writeOut hout, if_pos ⟨inRaster_iff.mpr (by omega), rfl, rfl⟩]
      exact congrArg pack hword
    · rw [readOut_writeOut hout, if_neg]
      rintro ⟨-, rfl, rfl⟩
      rcases hrc with hne | hne <;> exact hne rfl
  · rw [fastPixel_outside _ (by rw [← Bool.not_eq_true, hinside]; exact hin)]

end Sys2Proof.Machine
end

section
/-! PROOFS. The shape of a line cache: the contiguous columns it holds, the lookup that hits, fills or resets, and the
promotion at the start of a scanline. -/

namespace Sys2Proof.Machine

/-! ### Contiguous columns -/

/-- The columns from `lo` to `hi` in increasing order. -/
def columnSpan (lo hi : Int) : List Int := (List.range (hi - lo + 1).toNat).map fun j : Nat => lo + (j : Int)

theorem mem_columnSpan {lo hi x : Int} : x ∈ columnSpan lo hi ↔ lo ≤ x ∧ x ≤ hi := by
  simp only [columnSpan, List.mem_map, List.mem_range]
  constructor
  · rintro ⟨j, hj, rfl⟩
    omega
  · intro hx
    exact ⟨(x - lo).toNat, by omega, by omega⟩

theorem columnSpan_self (lo : Int) : columnSpan lo lo = [lo] := by
  simp [columnSpan]

/-- A span grows at its end. -/
theorem columnSpan_succ {lo hi : Int} (h : lo ≤ hi + 1) : columnSpan lo (hi + 1) = columnSpan lo hi ++ [hi + 1] := by
  have hlength : (hi + 1 - lo + 1).toNat = (hi - lo + 1).toNat + 1 := by omega
  have hlast : lo + ((hi - lo + 1).toNat : Int) = hi + 1 := by omega
  rw [columnSpan, hlength, List.range_succ, List.map_append, List.map_singleton, hlast, ← columnSpan]

/-- A span of at least one column begins with its lowest. -/
theorem columnSpan_eq_cons {lo hi : Int} (h : lo ≤ hi) : columnSpan lo hi = lo :: columnSpan (lo + 1) hi := by
  have hlength : (hi - lo + 1).toNat = (hi - (lo + 1) + 1).toNat + 1 := by omega
  have hshift : (fun j : Nat => lo + (j : Int)) ∘ Nat.succ = fun j : Nat => lo + 1 + (j : Int) := by
    funext j
    simp only [Function.comp_apply, Nat.succ_eq_add_one]
    omega
  rw [columnSpan, hlength, List.range_succ_eq_map, List.map_cons, List.map_map, hshift, ← columnSpan]
  simp

/-- Taking out a column at or below the lowest leaves the span that begins past it. -/
theorem columnSpan_evict {lo hi x : Int} (hx : x ≤ lo) (h : lo ≤ hi) :
    (columnSpan lo hi).filter (fun col => !(col == x)) = columnSpan (max lo (x + 1)) hi := by
  have hkeep {l : Int} (hl : x < l) : (columnSpan l hi).filter (fun col => !(col == x)) = columnSpan l hi := by
    refine List.filter_eq_self.mpr fun col hcol => ?_
    have hlow := (mem_columnSpan.mp hcol).1
    have hne : col ≠ x := by omega
    simpa using hne
  rcases Int.lt_or_eq_of_le hx with hlt | rfl
  · rw [hkeep hlt, Int.max_eq_left (by omega)]
  · rw [columnSpan_eq_cons h, List.filter_cons_of_neg (by simp), hkeep (by omega), Int.max_eq_right (by omega)]

/-! ### The shape of a cache -/

theorem cacheShaped_iff {depth : Nat} {c : LineCache} {k : CacheMarker} (hk : c.marker = some k) :
    cacheShaped depth c ↔
      k.lo ≤ k.hwm ∧ k.hwm - k.lo < depth ∧ c.entries.map (fun e => e.1) = columnSpan k.lo k.hwm := by
  simp only [cacheShaped, hk, columnSpan, bind_pure_comp, List.map_eq_map, List.map_map, Function.comp_def]

/-- What a shaped cache holds lies between its marks. -/
theorem column_of_mem_entries {depth : Nat} {c : LineCache} {k : CacheMarker} (hshape : cacheShaped depth c)
    (hk : c.marker = some k) {e : Int × Sample} (he : e ∈ c.entries) : k.lo ≤ e.1 ∧ e.1 ≤ k.hwm := by
  obtain ⟨-, -, hcolumns⟩ := (cacheShaped_iff hk).mp hshape
  exact mem_columnSpan.mp (hcolumns ▸ List.mem_map_of_mem he)

/-- A column between the marks of a shaped cache is a hit, of a value the cache holds for it. -/
theorem cacheHit_of_held {depth : Nat} {c : LineCache} {k : CacheMarker} {col : Int} (hshape : cacheShaped depth c)
    (hk : c.marker = some k) (hlo : k.lo ≤ col) (hhi : col ≤ k.hwm) :
    ∃ v, cacheHit c k.row col k.fs = some v ∧ (col, v) ∈ c.entries := by
  obtain ⟨-, -, hcolumns⟩ := (cacheShaped_iff hk).mp hshape
  have hmem : col ∈ c.entries.map fun e => e.1 := hcolumns ▸ mem_columnSpan.mpr ⟨hlo, hhi⟩
  obtain ⟨held, hheld, hcol⟩ := List.mem_map.mp hmem
  simp only [cacheHit, hk, and_self, hlo, hhi, if_true]
  cases hfind : c.entries.find? fun e => e.1 == col with
  | none => exact absurd (beq_iff_eq.mpr hcol) (List.find?_eq_none.mp hfind held hheld)
  | some e =>
    have he : e.1 = col := by simpa using List.find?_some hfind
    exact ⟨e.2, rfl, he ▸ List.mem_of_find?_eq_some hfind⟩

/-- A cache whose marker does not cover the column misses. -/
theorem cacheHit_eq_none {c : LineCache} {row col : Int} {fs : FetchState}
    (h : ∀ k, c.marker = some k ∧ k.row = row ∧ k.fs = fs → ¬(k.lo ≤ col ∧ col ≤ k.hwm)) :
    cacheHit c row col fs = none := by
  unfold cacheHit
  cases hk : c.marker with
  | none => rfl
  | some k => exact if_neg fun ⟨hrow, hfs, hin⟩ => h k ⟨hk, hrow, hfs⟩ hin

/-- The contiguous fill. -/
theorem cacheFill_next {c : LineCache} {k : CacheMarker} (depth : Nat) (v : Sample) (hk : c.marker = some k) :
    cacheFill depth c k.row (k.hwm + 1) k.fs v =
      ⟨some ⟨k.row, k.fs, max k.lo (k.hwm + 1 - depth + 1), k.hwm + 1⟩,
        (c.entries.filter fun e => !(e.1 == k.hwm + 1 - depth)) ++ [(k.hwm + 1, v)]⟩ := by
  simp only [cacheFill, hk, and_self, if_true]

/-- Any other miss resets the cache. -/
theorem cacheFill_reset {c : LineCache} {row col : Int} {fs : FetchState} (depth : Nat) (v : Sample)
    (h : ∀ k, c.marker = some k ∧ k.row = row ∧ k.fs = fs → col ≠ k.hwm + 1) :
    cacheFill depth c row col fs v = ⟨some ⟨row, fs, col, col⟩, [(col, v)]⟩ := by
  unfold cacheFill
  cases hk : c.marker with
  | none => rfl
  | some k => exact if_neg fun ⟨hrow, hfs, hnext⟩ => h k ⟨hk, hrow, hfs⟩ hnext

theorem cacheLookup_hit {c : LineCache} {row col : Int} {fs : FetchState} {held : Sample} (depth : Nat) (v : Sample)
    (h : cacheHit c row col fs = some held) : cacheLookup depth c row col fs v = (held, c) := by
  rw [cacheLookup, h]

theorem cacheLookup_miss {c : LineCache} {row col : Int} {fs : FetchState} (depth : Nat) (v : Sample)
    (h : cacheHit c row col fs = none) :
    cacheLookup depth c row col fs v = (v, cacheFill depth c row col fs v) := by
  rw [cacheLookup, h]

/-- The one column of a reset is a shaped cache in which it is a hit. -/
theorem reset_shaped {depth : Nat} (hdepth : 1 ≤ depth) (row col : Int) (fs : FetchState) (v : Sample) :
    cacheShaped depth ⟨some ⟨row, fs, col, col⟩, [(col, v)]⟩ ∧
      cacheHit ⟨some ⟨row, fs, col, col⟩, [(col, v)]⟩ row col fs = some v := by
  refine ⟨(cacheShaped_iff (k := ⟨row, fs, col, col⟩) rfl).mpr ⟨Int.le_refl col, by dsimp only; omega, (columnSpan_self col).symm⟩, ?_⟩
  simp [cacheHit]

/-- A fill keeps the shape: one column more at the end, and one less at the front once the cache is full. -/
theorem fill_shaped {depth : Nat} {c : LineCache} {k : CacheMarker} (hdepth : 1 ≤ depth) (v : Sample)
    (hshape : cacheShaped depth c) (hk : c.marker = some k) :
    cacheShaped depth (cacheFill depth c k.row (k.hwm + 1) k.fs v) := by
  obtain ⟨hle, hlength, hcolumns⟩ := (cacheShaped_iff hk).mp hshape
  have hfilter : (c.entries.filter fun e => !(e.1 == k.hwm + 1 - depth)).map (fun e => e.1) =
      columnSpan (max k.lo (k.hwm + 1 - depth + 1)) k.hwm := by
    rw [← columnSpan_evict (by omega) hle, ← hcolumns, List.filter_map]
    rfl
  rw [cacheFill_next depth v hk]
  refine (cacheShaped_iff rfl).mpr ⟨by dsimp only; omega, by dsimp only; omega, ?_⟩
  dsimp only
  rw [List.map_append, hfilter, columnSpan_succ (by omega), List.map_singleton]

/-- The column just filled is a hit of its own value: the cache held no other for it. -/
theorem cacheHit_fill {depth : Nat} {c : LineCache} {k : CacheMarker} (hdepth : 1 ≤ depth) (v : Sample)
    (hshape : cacheShaped depth c) (hk : c.marker = some k) :
    cacheHit (cacheFill depth c k.row (k.hwm + 1) k.fs v) k.row (k.hwm + 1) k.fs = some v := by
  obtain ⟨hle, hlength, -⟩ := (cacheShaped_iff hk).mp hshape
  have hfilled := fill_shaped hdepth v hshape hk
  rw [cacheFill_next depth v hk] at hfilled ⊢
  obtain ⟨held, hhit, hmem⟩ := cacheHit_of_held hfilled rfl (by dsimp only; omega) (Int.le_refl (k.hwm + 1))
  rcases List.mem_append.mp hmem with hold | hnew
  · have hbound := (column_of_mem_entries hshape hk (List.mem_of_mem_filter hold)).2
    exact absurd hbound (by dsimp only; omega)
  · obtain rfl : held = v := congrArg Prod.snd (List.mem_singleton.mp hnew)
    exact hhit

/-! ### Promotion -/

theorem promoted_eq {P : Params} {row : Int} {c : LineCache} {m : CacheMarker} (hm : c.marker = some m)
    (hrow : m.row = row) (hfs : m.fs = .fs0 ∨ P.cachePromoteStale = true) :
    (if promotes P c row then asCurrent c else {}) = ⟨some ⟨row, .fs0, m.lo, m.hwm⟩, c.entries⟩ := by
  have hpromotes : promotes P c row = true := by
    simpa [promotes, hm, hrow] using hfs
  rw [if_pos hpromotes, asCurrent, hm, Option.map_some, hrow]

theorem not_promoted_eq {P : Params} {row : Int} {c : LineCache}
    (h : ∀ m, c.marker = some m → m.row = row → m.fs ≠ .fs0 ∧ P.cachePromoteStale = false) :
    (if promotes P c row then asCurrent c else {}) = ({} : LineCache) := by
  refine if_neg ?_
  unfold promotes
  cases hm : c.marker with
  | none => exact Bool.false_ne_true
  | some m =>
    intro hp
    simp only [Bool.and_eq_true, Bool.or_eq_true, decide_eq_true_eq] at hp
    obtain ⟨hrow, hfs⟩ := hp
    obtain ⟨hne, hstale⟩ := h m hm hrow
    exact hfs.elim hne fun ht => absurd ht (hstale ▸ Bool.false_ne_true)

/-- Settles O58: a column held hits, the next one is filled, any other miss resets; and what promotion leaves. -/
theorem lookupKeepsTheCacheShape : Obligations.LookupKeepsTheCacheShape := by
  refine ⟨fun depth c row col fs v hdepth hshape => ?_, fun P row k => ⟨rfl, rfl, fun c hc => ?_⟩⟩
  · intro found mine
    by_cases hmine : ∃ k, mine k ∧ k.lo ≤ col ∧ col ≤ k.hwm + 1
    · obtain ⟨k, ⟨hk, rfl, rfl⟩, hlo, hhi⟩ := hmine
      have honly : ∀ l, mine l → l = k := fun l hl => Option.some.inj (hl.1.symm.trans hk)
      rcases Int.lt_or_eq_of_le hhi with hheld | rfl
      · obtain ⟨held, hhit, hmem⟩ := cacheHit_of_held hshape hk hlo (by omega)
        have hfound : found = (held, c) := cacheLookup_hit depth v hhit
        rw [hfound]
        refine ⟨hshape, hhit, fun _ _ _ _ => ⟨hmem, rfl⟩, fun l hl hcol => ?_, fun hout => ?_⟩
        · obtain rfl := honly l hl
          omega
        · have := hout k ⟨hk, rfl, rfl⟩
          omega
      · have hfound : found = (v, cacheFill depth c k.row (k.hwm + 1) k.fs v) :=
          cacheLookup_miss depth v (cacheHit_eq_none fun l hl => by obtain rfl := honly l hl; omega)
        rw [hfound]
        refine ⟨fill_shaped hdepth v hshape hk, cacheHit_fill hdepth v hshape hk, fun l hl _ hle => ?_, fun l hl _ => ?_,
          fun hout => ?_⟩
        · obtain rfl := honly l hl
          omega
        · obtain rfl := honly l hl
          rw [cacheFill_next depth v hk]
          refine ⟨rfl, rfl, fun e => ?_⟩
          simp only [List.mem_append, List.mem_filter, List.mem_singleton, Bool.not_eq_true', beq_eq_false_iff_ne]
        · have := hout k ⟨hk, rfl, rfl⟩
          omega
    · have hmiss : ∀ k, mine k → k.lo ≤ k.hwm ∧ (col < k.lo ∨ k.hwm + 1 < col) := fun k hk => by
        refine ⟨((cacheShaped_iff hk.1).mp hshape).1, ?_⟩
        by_contra hin
        exact hmine ⟨k, hk, by omega⟩
      have hfound : found = (v, ⟨some ⟨row, fs, col, col⟩, [(col, v)]⟩) := by
        refine (cacheLookup_miss depth v (cacheHit_eq_none fun k hk => ?_)).trans
          (congrArg (Prod.mk v) (cacheFill_reset depth v fun k hk => ?_)) <;>
        · have := hmiss k hk
          omega
      obtain ⟨hresetShape, hresetHit⟩ := reset_shaped hdepth row col fs v
      rw [hfound]
      refine ⟨hresetShape, hresetHit, fun k hk _ _ => ?_, fun k hk _ => ?_, fun _ => rfl⟩ <;>
      · have := hmiss k hk
        omega
  · simp only [List.mem_cons, List.not_mem_nil, or_false] at hc
    rcases hc with rfl | rfl <;> exact ⟨fun m hm hrow hfs => promoted_eq hm hrow hfs, not_promoted_eq⟩

end Sys2Proof.Machine
end

section
/-! PROOFS. The stages of a pixel asked for one after another compute the pixel of the render. -/

namespace Sys2Proof.Machine

/-! ### Fetch and resolve in the format of the frame -/

/-- The fetch in the format of the frame. -/
def formatFetch (P : Params) (m : Memory) (C : FrameConfig) (idx : Int) : Sample :=
  if C.is32 then fetch32 P m C idx else fetch16 P m C idx

/-- The restore filter in the format of the frame. -/
def formatRestore (P : Params) (m : Memory) (C : FrameConfig) (v : Sample) (idx : Int) (fs : FetchState) : Sample :=
  if C.is32 then restore32 P m C v idx fs else restore16 P m C v idx fs

/-- The blend filter in the format of the frame. -/
def formatBlend (P : Params) (m : Memory) (C : FrameConfig) (v : Sample) (idx : Int) (fs : FetchState) : Sample :=
  if C.is32 then blend32 P m C v idx fs else blend16 P m C v idx fs

/-- The filter that the selector of R249 puts after a fetched sample. -/
def formatResolve (P : Params) (m : Memory) (C : FrameConfig) (v : Sample) (idx : Int) (fs : FetchState) : Sample :=
  if v.cvg = 7 then (if C.restoreEn then formatRestore P m C v idx fs else v) else formatBlend P m C v idx fs

theorem resolvedSample_eq (P : Params) (m : Memory) (C : FrameConfig) (row col : Int) (fs : FetchState) :
    resolvedSample P m C row col fs =
      formatResolve P m C (formatFetch P m C (pixelIndex C row col)) (pixelIndex C row col) fs := by
  unfold resolvedSample formatResolve formatFetch formatRestore formatBlend
  cases C.is32 <;> rfl

/-- Without coverage extraction every sample is fully covered (R244, R246). -/
theorem formatFetch_cvg {C : FrameConfig} (h : C.covExtract = false) (P : Params) (m : Memory) (idx : Int) :
    (formatFetch P m C idx).cvg = 7 := by
  unfold formatFetch
  cases C.is32
  · exact if_neg (h ▸ Bool.false_ne_true)
  · exact if_neg (h ▸ Bool.false_ne_true)

/-- Neither filter touches the coverage. -/
theorem formatResolve_cvg (P : Params) (m : Memory) (C : FrameConfig) (v : Sample) (idx : Int) (fs : FetchState) :
    (formatResolve P m C v idx fs).cvg = v.cvg := by
  have hrestore : (formatRestore P m C v idx fs).cvg = v.cvg := by
    unfold formatRestore
    cases C.is32 <;> rfl
  have hblend : (formatBlend P m C v idx fs).cvg = v.cvg := by
    unfold formatBlend
    cases C.is32 <;> rfl
  unfold formatResolve
  split
  · split
    · exact hrestore
    · rfl
  · exact hblend

theorem exec_formatFetch {s : State} (hfatal : s.fatal = false) (idx : Int) :
    exec (if s.frame.is32 then .fetch8888 idx else .fetch5551 idx) s =
      .next (s.withLatch (latchFetch s.latch idx (formatFetch s.params s.memory s.frame idx))) := by
  cases h32 : s.frame.is32
  · simp only [formatFetch, h32, Bool.false_eq_true, if_false, exec]
    exact blockOperation_clear _ hfatal
  · simp only [formatFetch, h32, if_true, exec]
    exact blockOperation_clear _ hfatal

/-- The operation that the selector of R249 names for the fetched sample. -/
def resolveOp (C : FrameConfig) (v : Sample) (slot : Slot) (line : Line) : Instr :=
  if v.cvg = 7 then
    (if C.restoreEn then (if C.is32 then .restore32 slot line else .restore16 slot line) else .resolvePass slot)
  else (if C.is32 then .blend32 slot line else .blend16 slot line)

theorem exec_resolveOp {s : State} (hfatal : s.fatal = false) (slot : Slot) (line : Line) :
    exec (resolveOp s.frame s.latch.fetched slot line) s =
      .next (s.withLatch (putSlot s.latch slot (formatResolve s.params s.memory s.frame s.latch.fetched
        s.latch.fetchedIdx (lineFetchState s.latch line)))) := by
  by_cases hfull : s.latch.fetched.cvg = 7
  · cases hrestore : s.frame.restoreEn
    · rw [resolveOp, if_pos hfull, if_neg (hrestore ▸ Bool.false_ne_true), formatResolve, if_pos hfull,
        if_neg (hrestore ▸ Bool.false_ne_true)]
      dsimp only [exec]
      exact blockOperation_clear _ hfatal
    · rw [resolveOp, if_pos hfull, if_pos hrestore, formatResolve, if_pos hfull, if_pos hrestore, formatRestore]
      cases s.frame.is32
      · rw [if_neg Bool.false_ne_true, if_neg Bool.false_ne_true]
        dsimp only [exec]
        exact blockOperation_clear _ hfatal
      · rw [if_pos rfl, if_pos rfl]
        dsimp only [exec]
        exact blockOperation_clear _ hfatal
  · rw [resolveOp, if_neg hfull, formatResolve, if_neg hfull, formatBlend]
    cases s.frame.is32
    · rw [if_neg Bool.false_ne_true, if_neg Bool.false_ne_true]
      dsimp only [exec]
      exact blockOperation_clear _ hfatal
    · rw [if_pos rfl, if_pos rfl]
      dsimp only [exec]
      exact blockOperation_clear _ hfatal

/-! ### Divot and scaler -/

/-- The divot keeps the centre's coverage. -/
theorem divotSample_cvg (P : Params) (m : Memory) (C : FrameConfig) (row col : Int) (fs : FetchState) :
    (divotSample P m C row col fs).cvg = (resolvedSample P m C row col fs).cvg := by
  unfold divotSample divot
  split
  · split
    · rfl
    · rfl
  · rfl

/-- Interpolation or not, the scaled sample has the coverage of the first corner (R299). -/
theorem scaledSample_cvg (P : Params) (m : Memory) (C : FrameConfig) (y i : Int) :
    (scaledSample P m C y i).cvg = (resolvedSample P m C (srow C y) (scol C i) .fs0).cvg := by
  rw [← divotSample_cvg]
  unfold scaledSample
  dsimp only
  split
  · rfl
  · rfl

/-- When a pixel is interpolated (R296). -/
theorem lerping_iff (C : FrameConfig) (y i : Int) :
    lerping C y i = true ↔ C.bilinearEn = true ∧ (xfrac C i ≠ 0 ∨ yfrac C y ≠ 0) := by
  simp only [lerping, Bool.and_eq_true, Bool.or_eq_true, decide_eq_true_eq]

/-! ### Gamma, dither and the write -/

/-- The operation of a gamma and dither mode. -/
def gdOp : GdMode → Instr
  | .none => .gdNone
  | .dither => .gdDither
  | .gamma => .gdGamma
  | .gammaDither => .gdGammaDither

/-- Under the draws the operation of a mode puts its colour in the latch of a pixel that is not clipped, and changes
nothing else but the workers. -/
theorem exec_gdOp {s : State} (hfatal : s.fatal = false) (hdraw : s.params.ditherSource = .draw) (mode : GdMode) :
    ∃ l ws, exec (gdOp mode) s = .next ((s.withLatch l).withWorkers ws) ∧ l.clipped = s.latch.clipped ∧
      (s.latch.clipped = false → l.colour = gammaDither mode (Config.dither1 s.draws s.scan.y s.scan.i)
        (Config.dither6 s.draws s.scan.y s.scan.i) s.latch.colour) := by
  have hstage : ∃ l ws, gammaDitherStage mode s = (s.withLatch l).withWorkers ws ∧ l.clipped = s.latch.clipped ∧
      (s.latch.clipped = false → l.colour = gammaDither mode (Config.dither1 s.draws s.scan.y s.scan.i)
        (Config.dither6 s.draws s.scan.y s.scan.i) s.latch.colour) := by
    cases hclip : s.latch.clipped with
    | true => exact ⟨s.latch, s.workers, gammaDitherStage_clipped hclip mode, hclip, fun h => Bool.noConfusion h⟩
    | false => exact ⟨_, _, gammaDitherStage_unclipped hclip mode (finishPixel_draw hdraw ..), hclip, fun _ => rfl⟩
  cases mode <;> dsimp only [gdOp, exec]
  case none => exact ⟨s.latch, s.workers, blockOperation_clear _ hfatal, rfl, fun _ => rfl⟩
  case gamma =>
    exact ⟨{ s.latch with colour := colourOf fun ch => gammaTable (colourChannel s.latch.colour ch) }, s.workers,
      blockOperation_clear _ hfatal, rfl, fun _ => rfl⟩
  case dither =>
    obtain ⟨l, ws, hnext, hl⟩ := hstage
    exact ⟨l, ws, (blockOperation_clear _ hfatal).trans (congrArg _ hnext), hl⟩
  case gammaDither =>
    obtain ⟨l, ws, hnext, hl⟩ := hstage
    exact ⟨l, ws, (blockOperation_clear _ hfatal).trans (congrArg _ hnext), hl⟩

/-- The word of a normal frame's pixel (R324). -/
theorem directPixel_normal {s : State} (h : s.sampled.displayMode = .normal) (y i : Nat) :
    directPixel s y i = if clippedAt s.frame i then 0 else
      pack (gammaDither s.frame.gdMode (Config.dither1 s.draws y i) (Config.dither6 s.draws y i)
        (scaledColour s.params s.memory s.frame y i)) := by
  rw [directPixel, h]

/-- Latches that hold the finished colour of a pixel and its clip mark hold the pixel's word. -/
theorem latchedPixel_eq_directPixel {s : State} {l : PixelLatches} {y i : Nat} (hmode : s.sampled.displayMode = .normal)
    (hclip : l.clipped = clippedAt s.frame i)
    (hcolour : l.clipped = false → l.colour = gammaDither s.frame.gdMode (Config.dither1 s.draws y i)
      (Config.dither6 s.draws y i) (scaledColour s.params s.memory s.frame y i)) :
    latchedPixel l = directPixel s y i := by
  rw [directPixel_normal hmode, latchedPixel, hclip]
  cases hin : clippedAt s.frame i with
  | true => rfl
  | false => exact congrArg pack (hcolour (hclip.trans hin))

/-- Settles O59: fetch and resolve, divot, scaler, and the stages up to the write. -/
theorem stagesComposeThePixel : Obligations.StagesComposeThePixel := by
  intro s hfatal P m C
  refine ⟨fun row col slot line => ?_, fun row col fs corner hleft hcentre hright => ?_, ?_, ?_⟩
  · intro idx fs
    have hidx : pixelIndex C row col = idx := by
      show (if C.is32 then _ else _) = (if C.is32 then _ else _) + _ + _
      cases C.is32 <;> rfl
    have hresolved := resolvedSample_eq P m C row col fs
    rw [hidx] at hresolved
    refine ⟨_, _, exec_formatFetch hfatal idx,
      exec_resolveOp (s := s.withLatch (latchFetch s.latch idx (formatFetch P m C idx))) hfatal slot line, ?_, ?_, fun hcov => ⟨?_, fun hres => ?_⟩⟩
    · rw [hresolved]
      show _ = s.withLatch (putSlot _ slot (formatResolve P m C _ idx (if line = .current then .fs0 else s.latch.fs)))
      rw [lineFetchState_eq]
      rfl
    · rw [hresolved, formatResolve_cvg]
      rfl
    · exact formatFetch_cvg hcov P m idx
    · rw [hresolved, formatResolve, if_pos (formatFetch_cvg hcov P m idx), if_neg (hres ▸ Bool.false_ne_true)]
      rfl
  · rw [divotSample, ← hcentre, ← hleft, ← hright]
    cases C.divotEn
    · rw [if_neg Bool.false_ne_true, if_neg Bool.false_ne_true]
      dsimp only [exec]
      exact blockOperation_clear _ hfatal
    · rw [if_pos rfl, if_pos rfl]
      dsimp only [exec]
      exact blockOperation_clear _ hfatal
  · intro y i row col yf xf fs h00 h01 h10 h11
    have hcvg := scaledSample_cvg P m C y i
    have hlerping := lerping_iff C y i
    have hcolour : putColour s.latch (scaledSample P m C y i) = { s.latch with
        colour := scaledColour P m C y i, colourCvg := (resolvedSample P m C row col .fs0).cvg } := by
      rw [putColour, hcvg, srow_eq, scol_eq]
      rfl
    rw [← hcolour]
    have hscaled : scaledSample P m C y i =
        if lerping C y i then bilerp P s.latch.c00 s.latch.c01 s.latch.c10 s.latch.c11 (xfrac C i) (yfrac C y)
        else s.latch.c00 := by
      rw [scaledSample, srow_eq, scol_eq, h00, h01, h10, h11]
    rw [xfrac_eq, yfrac_eq] at hlerping
    by_cases hlerp : C.bilinearEn = true ∧ (xf ≠ 0 ∨ yf ≠ 0)
    · rw [if_pos hlerp, hscaled, if_pos (hlerping.mpr hlerp)]
      dsimp only [exec]
      exact blockOperation_clear _ hfatal
    · rw [if_neg hlerp, hscaled, if_neg fun h => hlerp (hlerping.mp h)]
      dsimp only [exec]
      exact blockOperation_clear _ hfatal
  · intro y i hphase hmode hwf hdraw hy hi hcolour hclip
    obtain ⟨l, ws, hstage, hlclip, hlcolour⟩ := exec_gdOp hfatal hdraw C.gdMode
    obtain ⟨-, hout, -, -⟩ := State.wf_iff.mp hwf
    have hclipped : s.latch.clipped = clippedAt s.frame i := hclip.trans (Bool.decide_or _ _)
    have hpixel : latchedPixel l = directPixel s y i := latchedPixel_eq_directPixel hmode (hlclip.trans hclipped)
      fun h => (hlcolour (hlclip.symm.trans h)).trans (hcolour ▸ rfl)
    have hinside : insideFrame s y i = true := by
      rw [insideFrame_iff, lt_scanlineCount_iff, lt_lineLength_iff, if_pos hmode, if_pos hmode]
      exact ⟨hy, hi⟩
    refine ⟨_, _, hstage, phaseOperation_clear _ hfatal hphase, fun hraster => ?_⟩
    rcases storePixel_cases ((s.withLatch l).withWorkers ws) with ⟨-, e⟩ | ⟨houtside, -⟩
    · have hrow : targetRow s y = outRow s.frame y := by rw [targetRow, hmode]
      have hcolumn : targetColumn s i = s.frame.hStart + i := by rw [targetColumn, hmode]
      rw [hrow, hcolumn] at hraster ⊢
      rw [e, ← hpixel]
      exact (readOut_writeOut hout _ _ _ _ _).trans (if_pos ⟨hraster, rfl, rfl⟩)
    · exact absurd (hinside.symm.trans houtside) Bool.noConfusion

end Sys2Proof.Machine
end
